-- ==== Sys2Proof/Word.lean ====
section
/-! DEFINITION. The byte, the one data type on every port of the engine (R9, R61). -/

namespace Sys2Proof

/-- `u8` of R9: an unsigned 8-bit value. Addition wraps modulo 256 (`+8` of R10). -/
abbrev Byte := BitVec 8

end Sys2Proof
end

