-- ==== Sys2Proof/Config.lean ====
section
/-! DEFINITION. What an implementation of the engine fixes (R8): the five OPEN Boolean parameters `EMIT_CAN_*` (R227, D7) and
the checksum function (R111, D3, U5). They are plain data and State carries one value of this type, so a statement about every
state is a statement about every implementation. (`SEQ_WRAP` of R8 is decided by the spec and is a definition of
`Machine/Codec.lean`; `COUNT_BITS` is unbounded, log 14.) -/

namespace Sys2Proof

/-- The parameters: whether a CAN byte is written before `ProtocolViolation` at a site the source does not name (R227), and the
checksum function. -/
structure Config where
  /-- `EMIT_CAN_RX_EOT2` -/
  emitCanRxEot2 : Bool
  /-- `EMIT_CAN_TX_HANDSHAKE` -/
  emitCanTxHandshake : Bool
  /-- `EMIT_CAN_TX_REPLY` -/
  emitCanTxReply : Bool
  /-- `EMIT_CAN_TX_EOT1` -/
  emitCanTxEot1 : Bool
  /-- `EMIT_CAN_TX_EOT2` -/
  emitCanTxEot2 : Bool
  /-- `cksum`, as plain data (log 13): the blocks on which the implementation's checksum is not the value of R111, each with the
  value it has there; the first entry for a block counts. Empty: R111 itself. Every total function of 128 bytes is some such list
  (`Laws/Checksum.lean`). -/
  cksumOverrides : List (List Byte × Byte)
  deriving DecidableEq, Repr

end Sys2Proof
end

