-- ==== Sys2Proof/Machine/Params.lean ====
section
/-! DEFINITION. The constants of R7, by name, the packet buffer's type, and the values the parameters take in the reset state. -/

namespace Sys2Proof.Machine

/-- `SOH`, start-of-packet (R81). -/
abbrev sohByte : Byte := 0x01
/-- `EOT`, end-of-transmission (R81). -/
abbrev eotByte : Byte := 0x04
/-- `ACK`, positive-ack (R81). -/
abbrev ackByte : Byte := 0x06
/-- `NAK`, negative-ack (R81). -/
abbrev nakByte : Byte := 0x15
/-- `CAN`, cancel (R81). -/
abbrev canByte : Byte := 0x18
/-- `PAD`, the padding byte of the final short chunk (R7, R64). -/
abbrev padByte : Byte := 0x00
/-- `DATA_LEN`: data bytes per packet. -/
abbrev dataLen : Nat := 128
/-- `FRAME_LEN`: bytes of one data frame on the wire. -/
abbrev frameLen : Nat := 132
/-- Bytes of a frame before its data: SOH, `seq`, `cmp` (R82). -/
abbrev headerLen : Nat := 3
/-- Offset of the checksum byte, the last byte of a frame (R82). -/
abbrev cksumOffset : Nat := frameLen - 1
/-- `FIRST_PACKET`: `packet_number` of a new engine. -/
abbrev firstPacket : Byte := 1
/-- `COMPLEMENT_BASE`. -/
abbrev complementBase : Byte := 255
/-- `CHECKSUM_MODULUS`. -/
abbrev checksumModulus : Byte := 255
/-- `MAX_ATTEMPTS`: transmissions of one packet per TX_PACKET command. -/
abbrev maxAttempts : Nat := 10
/-- `MAX_OUTER_ATTEMPTS`: TX_PACKET commands per chunk in TRANSMIT. -/
abbrev maxOuterAttempts : Nat := 10

/-- DESIGN CHOICE (log 12), unsafe for statements about the reset state: the five OPEN parameters at the spec's
"suggested default `false`" (R8). The checksum is the normative one of R111 (log 13). -/
def defaultConfig : Config :=
  { emitCanRxEot2 := false
    emitCanTxHandshake := false
    emitCanTxReply := false
    emitCanTxEot1 := false
    emitCanTxEot2 := false
    cksumOverrides := [] }

/-- DESIGN CHOICE (log 8), unsafe: the value of every `x[i]` at reset, where R36 says "unspecified". -/
def unwrittenByte : Byte := 0

end Sys2Proof.Machine

/-- The type of the packet buffer `x[0..127]`: `DATA_LEN` registers of `u8` (R23, R7). -/
abbrev Sys2Proof.Buffer := Vector Sys2Proof.Byte Sys2Proof.Machine.dataLen
end

