-- ==== Sys2Proof/Machine/Codec.lean ====
section
/-! DEFINITION. The packet codec's pure functions (R110 to R118): checksum, complement, framer, deframer, and the wrapping
increment of `packet_number`. -/

namespace Sys2Proof.Machine

/-- The running accumulator `acc` after the bytes of `d`: 8-bit wrapping addition, carry discarded (R111). -/
def sum8 (d : List Byte) : Byte := d.foldl (fun acc b => acc + b) 0

/-- `cksum(d) = acc mod 255`, the reduction taken once at the end: the normative function (R111, reading A of D3). -/
def cksum (d : List Byte) : Byte := sum8 d % checksumModulus

/-- The checksum of the implementation `c`: R111's, but where the configuration says otherwise (R8, R111 "a configuration
function", U5; log 13). The engine reaches the checksum through this function only. -/
def checksumOf (c : Config) (d : List Byte) : Byte :=
  match c.cksumOverrides.lookup d with
  | some v => v
  | none => cksum d

/-- `cmp(n) = 255 - n` (R113). -/
def complementOf (n : Byte) : Byte := complementBase - n

/-- `packet_number +8 1`: 255 is followed by 0 (R22, R114, D4). -/
def nextPacket (n : Byte) : Byte := n + 1

/-- The bytes of a frame with the given fields, offset 0 first (R82). -/
def frameBytes (seq cmp : Byte) (d : List Byte) (ck : Byte) : List Byte :=
  sohByte :: seq :: cmp :: (d ++ [ck])

/-- `frame(n, d) = [0x01, n, 255 - n] ++ d ++ [cksum(d)]` (R115). -/
def frameOf (c : Config) (n : Byte) (d : List Byte) : List Byte := frameBytes n (complementOf n) d (checksumOf c d)

/-- `f[3..130]`: the data bytes of a frame (R82). -/
def frameData (f : List Byte) : List Byte := (f.drop headerLen).take dataLen

/-- `wellformed(n, f)` (R116, R91). -/
def frameWellFormed (c : Config) (n : Byte) (f : List Byte) : Bool :=
  f[0]? == some sohByte && f[1]? == some n && f[2]? == some (complementOf n) &&
    f[cksumOffset]? == some (checksumOf c (frameData f))

/-- `deframe(n, f)` (R116). -/
def deframeOf (c : Config) (n : Byte) (f : List Byte) : Option (List Byte) :=
  if frameWellFormed c n f then some (frameData f) else none

end Sys2Proof.Machine
end

