-- ==== Sys2Proof/Syntax.lean ====
section
/-! DEFINITION. The 15 rows of `spec/opcode_table.json`, one constructor each: the five wire symbols (R81), the data
frame (R82), the five host commands (R92) and the four codec functions (R94). -/

namespace Sys2Proof

/-- What the block can be given to do: a wire unit to read, a command to run, a codec function to evaluate. -/
inductive Instr where
  /-- start-of-packet, 0x01 (R81) -/
  | soh
  /-- end-of-transmission, 0x04 (R81) -/
  | eot
  /-- positive-ack, 0x06 (R81) -/
  | ack
  /-- negative-ack, 0x15 (R81) -/
  | nak
  /-- cancel, 0x18 (R81) -/
  | can
  /-- the 132-byte data frame `[0x01][seq][cmp][data 0..127][ck]` (R82); `seq`, `cmp` and `ck` may hold any value (R84) -/
  | data (seq cmp : Byte) (d : List Byte) (ck : Byte)
  /-- NEW, `CMD.op` 0 (R190) -/
  | new
  /-- RX_PACKET, `CMD.op` 1, with `ARG.len = cap` (R130) -/
  | rxPacket (cap : Nat)
  /-- TX_PACKET, `CMD.op` 2, with `ARG.len = len` (R160) -/
  | txPacket (len : Nat)
  /-- RECEIVE, `CMD.op` 3 (R195) -/
  | receive
  /-- TRANSMIT, `CMD.op` 4; its operand is the SRC stream (R200) -/
  | transmit
  /-- CHECKSUM of 128 bytes (R111) -/
  | checksum (d : List Byte)
  /-- COMPLEMENT of a byte (R113) -/
  | complement (n : Byte)
  /-- FRAME of a packet number and 128 bytes (R115) -/
  | frame (n : Byte) (d : List Byte)
  /-- DEFRAME of a packet number and 132 bytes (R116) -/
  | deframe (n : Byte) (f : List Byte)
  deriving DecidableEq, Repr

end Sys2Proof
end

