-- ==== Sys2Proof/WellFormed.lean ====
section
/-! DEFINITION. The checks on an instruction's operands: a frame carries exactly 128 data bytes (R82), CHECKSUM and FRAME
take exactly 128 bytes (R111, R115), DEFRAME exactly 132 (R116). Every operand value of a command is well formed:
`cap` and `len` are any naturals, and the command itself raises `ContractViolation` on a bad one (R131, R161). -/

namespace Sys2Proof

/-- The check of one instruction. -/
def Instr.wellFormed : Instr → Bool
  | .soh => true
  | .eot => true
  | .ack => true
  | .nak => true
  | .can => true
  | .data _ _ d _ => d.length == Machine.dataLen
  | .new => true
  | .rxPacket _ => true
  | .txPacket _ => true
  | .receive => true
  | .transmit => true
  | .checksum d => d.length == Machine.dataLen
  | .complement _ => true
  | .frame _ d => d.length == Machine.dataLen
  | .deframe _ f => f.length == Machine.frameLen

/-- `Instr.wellFormed` as a proposition. -/
abbrev Instr.WellFormed (i : Instr) : Prop := i.wellFormed = true

end Sys2Proof
end

