-- ==== Sys2Proof/Decode.lean ====
section
/-! DEFINITION. The decoder and the encoder. Words reach the block on two ports (R80, R92): bytes of a wire unit on
`CHAN_RD`, and a 3-bit command code with its operand on `CMD`/`ARG`. What a byte means is decided by the place at which it is
read, never by its value alone (R84), so the decoder is given the port. The codec functions have no encoding (R94). -/

namespace Sys2Proof

open Sys2Proof.Machine

/-- An encoded instruction, by the port it arrives on. -/
inductive Code where
  /-- the bytes of one wire unit, first sent first (R80, R82) -/
  | wire (bytes : List Byte)
  /-- a write of `CMD.op` and `ARG.len` (R31, R92) -/
  | cmd (op : BitVec 3) (arg : Nat)
  deriving DecidableEq, Repr

/-- Why the decoder rejects. -/
inductive DecodeError where
  /-- one byte that is none of the five symbols: an "illegal" value at a symbol site, data at a raw site (R85 to R90) -/
  | notASymbol
  /-- neither 1 nor 132 bytes: no wire unit has that length (R80) -/
  | noSuchLength
  /-- 132 bytes that do not begin with SOH (R80, R82) -/
  | noStartByte
  /-- `CMD.op` 5, 6 or 7 (R93) -/
  | reservedOp
  deriving DecidableEq, Repr

/-- One byte as a symbol (R81). -/
def decodeSymbol (b : Byte) : Except DecodeError Instr :=
  if b = sohByte then .ok .soh
  else if b = eotByte then .ok .eot
  else if b = ackByte then .ok .ack
  else if b = nakByte then .ok .nak
  else if b = canByte then .ok .can
  else .error .notASymbol

/-- 132 bytes as a data frame (R82): `f[0]` is SOH, then `seq`, `cmp`, 128 data bytes, `ck`. -/
def decodeFrame (f : List Byte) : Except DecodeError Instr :=
  match f with
  | soh :: seq :: cmp :: rest =>
    if soh = sohByte then
      match rest.drop dataLen with
      | ck :: _ => .ok (.data seq cmp (rest.take dataLen) ck)
      | [] => .error .noSuchLength
    else .error .noStartByte
  | _ => .error .noSuchLength

/-- The bytes of one wire unit (R80): a symbol, one byte, or a data frame, 132 bytes. Nothing else. -/
def decodeWire (bytes : List Byte) : Except DecodeError Instr :=
  match bytes with
  | [b] => decodeSymbol b
  | f => if f.length = frameLen then decodeFrame f else .error .noSuchLength

/-- A `CMD`/`ARG` write (R92, R93). NEW, RECEIVE and TRANSMIT ignore `ARG.len` (R31). -/
def decodeCmd (op : BitVec 3) (arg : Nat) : Except DecodeError Instr :=
  if op = 0 then .ok .new
  else if op = 1 then .ok (.rxPacket arg)
  else if op = 2 then .ok (.txPacket arg)
  else if op = 3 then .ok .receive
  else if op = 4 then .ok .transmit
  else .error .reservedOp

/-- The decoder, total on any bits. -/
def decode : Code → Except DecodeError Instr
  | .wire bytes => decodeWire bytes
  | .cmd op arg => decodeCmd op arg

/-- The encoder: the words of an instruction, written from R81, R82 and R92. A command without an operand is written with
`ARG.len` 0 (log 25); a codec function has no words (R94). -/
def encode : Instr → Option Code
  | .soh => some (.wire [sohByte])
  | .eot => some (.wire [eotByte])
  | .ack => some (.wire [ackByte])
  | .nak => some (.wire [nakByte])
  | .can => some (.wire [canByte])
  | .data seq cmp d ck => some (.wire (frameBytes seq cmp d ck))
  | .new => some (.cmd 0 0)
  | .rxPacket cap => some (.cmd 1 cap)
  | .txPacket len => some (.cmd 2 len)
  | .receive => some (.cmd 3 0)
  | .transmit => some (.cmd 4 0)
  | .checksum _ => none
  | .complement _ => none
  | .frame _ _ => none
  | .deframe _ _ => none

/-- `k` bytes of the number `w`, the least significant byte first. -/
def bytesOfNat : Nat → Nat → List Byte
  | 0, _ => []
  | k + 1, w => BitVec.ofNat 8 w :: bytesOfNat k (w / 256)

/-- DESIGN CHOICE (log 24): which port a table word of `nbits` bits belongs to, and the order of a frame's bytes in its number. A
word of fewer than 8 bits is a command code. A word of 8 bits is a symbol where it is one, else a command code. A longer word is
a data frame whose offset 0 is the LEAST significant byte of the number, offset 1 the next, and so on: R103 gives the frame as a
pattern string and as no number. -/
def tableCode (nbits w : Nat) : Option Code :=
  if nbits < 8 then
    if w < 8 then some (.cmd (BitVec.ofNat 3 w) 0) else none
  else if nbits = 8 then
    match decodeSymbol (BitVec.ofNat 8 w) with
    | .ok _ => some (.wire [BitVec.ofNat 8 w])
    | .error _ => if w < 8 then some (.cmd (BitVec.ofNat 3 w) 0) else none
  else some (.wire (bytesOfNat frameLen w))

/-- The instruction the decoder reads from a table row's word (log 24). -/
def decodeTableWord (nbits w : Nat) : Option Instr :=
  match tableCode nbits w with
  | some c => (decode c).toOption
  | none => none

end Sys2Proof
end

