-- ==== Sys2Proof/Machine/State.lean ====
section
/-! DEFINITION. The state of one engine with the environment's side of its ports, all plain data: what `spec/10_state.md`
gives the machine, listed in INVENTORY.md under State. -/

namespace Sys2Proof.Machine

/-- The four ports (R34, R220). -/
inductive Port where
  /-- `CHAN_RD`, the incoming half of the duplex byte channel -/
  | chanRd
  /-- `CHAN_WR`, its outgoing half -/
  | chanWr
  /-- `SRC`, the byte source of TRANSMIT -/
  | src
  /-- `SINK`, the byte sink of RECEIVE -/
  | sink
  deriving DecidableEq, Repr

/-- The class of an I/O failure (R58): the engine tells `Interrupted` from all others and never inspects `c`. -/
inductive IoKind where
  | interrupted
  | other (c : Nat)
  deriving DecidableEq, Repr

/-- The sequencer register `phase` (R24): which port operation the engine performs next. -/
inductive Phase where
  | idle
  | terminated
  | rxHsNak
  | rxHeader
  | rxSeq
  | rxSeqCan
  | rxCmp
  | rxCmpCan
  | rxData (i : Fin dataLen)
  | rxCksum
  | rxAck
  | rxNak
  | rxEotNak
  | rxEot2
  | rxEot2Can
  | rxEotAck
  | rcSink
  | txHandshake
  | txHandshakeCan
  | txEot1Send
  | txEot1
  | txEot1Can
  | txEot2Send
  | txEot2
  | txEot2Can
  | txSoh
  | txSeq
  | txCmp
  | txData (i : Fin dataLen)
  | txCksum
  | txReply
  | txReplyCan
  | trSrc
  deriving DecidableEq, Repr

/-- A site, as an error records it (R229): a `phase` value other than Idle and Terminated, the data index left out. -/
inductive Site where
  | rxHsNak
  | rxHeader
  | rxSeq
  | rxSeqCan
  | rxCmp
  | rxCmpCan
  | rxData
  | rxCksum
  | rxAck
  | rxNak
  | rxEotNak
  | rxEot2
  | rxEot2Can
  | rxEotAck
  | rcSink
  | txHandshake
  | txHandshakeCan
  | txEot1Send
  | txEot1
  | txEot1Can
  | txEot2Send
  | txEot2
  | txEot2Can
  | txSoh
  | txSeq
  | txCmp
  | txData
  | txCksum
  | txReply
  | txReplyCan
  | trSrc
  deriving DecidableEq, Repr

/-- Sub-cause of `ContractViolation` (R224). -/
inductive ContractCause where
  | rxBufferTooSmall
  | txBadLength
  deriving DecidableEq, Repr

/-- Sub-cause of `RetryExhausted` (R223). -/
inductive RetryScope where
  | inner
  | outer
  deriving DecidableEq, Repr

/-- The five kinds of error with what each records (R220 to R225). -/
inductive CmdError where
  | contractViolation (cause : ContractCause)
  | protocolViolation (site : Site)
  | peerAbort (site : Site)
  | retryExhausted (scope : RetryScope)
  | ioFailure (port : Port) (kind : IoKind) (site : Site)
  deriving DecidableEq, Repr

/-- What RESULT holds (R32). -/
inductive CmdResult where
  | ok (count : Nat)
  | err (e : CmdError)
  deriving DecidableEq, Repr

/-- The command codes of `CMD.op` (R92). -/
inductive Cmd where
  | new
  | rxPacket
  | txPacket
  | receive
  | transmit
  deriving DecidableEq, Repr

/-- The two roles (R245). -/
inductive Role where
  | receiver
  | sender
  deriving DecidableEq, Repr

/-- The environment's answer to a channel read (R52). -/
inductive ReadAnswer where
  | byte (b : Byte)
  | fail (k : IoKind)
  deriving DecidableEq, Repr

/-- The environment's answer to a channel write (R54). After a failure the engine does not know whether the byte went
out: `wentOut` says what happened, and nothing constrains it (U13). -/
inductive WriteAnswer where
  | accepted
  | fail (k : IoKind) (wentOut : Bool)
  deriving DecidableEq, Repr

/-- The environment's answer to a source read (R55). The third answer, `End`, is the end of the list. -/
inductive SrcAnswer where
  | byte (b : Byte)
  | fail (k : IoKind)
  deriving DecidableEq, Repr

/-- The environment's answer to a sink write (R56). -/
inductive SinkAnswer where
  | accepted
  | fail (k : IoKind)
  deriving DecidableEq, Repr

/-- What the environment answers once a list of answers has been used up: the same answers over and over, for ever (R143,
R196 f; log 2). An empty list: nothing more, the transaction stays unanswered (R57), and the source has ended (R55). -/
structure Again where
  /-- channel reads -/
  chanRd : List ReadAnswer
  /-- channel writes -/
  chanWrAns : List WriteAnswer
  /-- source reads -/
  src : List SrcAnswer
  /-- sink writes -/
  sinkAns : List SinkAnswer
  deriving DecidableEq, Repr

/-- What the host does next (R31): a write of `CMD` with `ARG`, or a write of one packet-buffer register. -/
inductive HostOp where
  | command (op : BitVec 3) (arg : Nat)
  | writeX (i : Fin dataLen) (v : Byte)
  deriving DecidableEq, Repr

/-- The value of a codec function evaluated as an instruction (log 7): the model's own, not the spec's. -/
inductive CodecOut where
  | nothing
  | byte (b : Byte)
  | bytes (l : List Byte)
  | deframed (o : Option (List Byte))
  deriving DecidableEq, Repr

/-- Why the machine stops with no step to take. Neither is an error of the engine: the errors of the spec end a command
with `RESULT = Err` and are next states. -/
inductive Fault where
  /-- Raised by a step whose port transaction the environment has not answered: the STUCK state of R57 and U12. Safe. -/
  | waiting (port : Port)
  /-- Raised by a step of an engine that is Idle or Terminated and has been given no command (R36). Safe. -/
  | waitingForCommand
  deriving DecidableEq, Repr

/-- Why an instruction has no meaning in a state. Each but `notModelled` is a "refused" of the spec. -/
inductive Refusal where
  /-- Raised by `exec` for an instruction that has no meaning yet. Safe. -/
  | notModelled (mnemonic : String)
  /-- Raised by a command, an `x` access or a RESULT read while the engine is busy (R31, R93). Safe. -/
  | busy
  /-- Raised by RX_PACKET and TX_PACKET while `phase = Terminated` (R29, R147, R174). Safe. -/
  | terminated
  /-- Raised by RX_PACKET and TX_PACKET on an engine that serves the other role (R147, R174). Safe. -/
  | wrongRole
  /-- Raised by `TX_PACKET len=128` when an entry was never written (R174: "the command is refused"; U9: `refuse`), and by a host
  read of such an `x[i]` (U11: "reads by the host before a write are `refuse`"). Safe. -/
  | bufferUnwritten
  /-- Raised by a write of `CMD.op` 5, 6 or 7 (R93). Safe. -/
  | reservedCommand (op : BitVec 3)
  /-- Raised by a host read of RESULT before any command has ended (R31; U11: "not valid until a command ends; a host read before
  that is `refuse`"). Safe. -/
  | resultNotValid
  /-- Raised by a codec function or a DATA frame whose operand does not have the length of its rule (log 29). Safe. -/
  | illFormed
  deriving DecidableEq, Repr

/-- One engine, and the environment's side of its ports. -/
structure State where
  /-- the packet expected next, or being sent next (R22) -/
  packetNumber : Byte
  /-- the packet buffer `x[0..127]` (R23) -/
  x : Buffer
  /-- which `x[i]` have been written since reset (R23, R36, R174) -/
  xWritten : Vector Bool dataLen
  /-- the sequencer register; `terminated` is `phase = Terminated` (R24, R29) -/
  phase : Phase
  /-- the checksum accumulator (R25) -/
  acc : Byte
  /-- transmissions of the frame by the current TX_PACKET command (R26); after that command the last count stays (DESIGN CHOICE, log 32) -/
  attempt : Nat
  /-- TX_PACKET commands issued for the current chunk of TRANSMIT (R27) -/
  outer : Nat
  /-- genuine source bytes in the chunk now in `x` (R27) -/
  n : Nat
  /-- the driver's running byte count (R27) -/
  total : Nat
  /-- index of the next unread source byte (R27) -/
  pos : Nat
  /-- true once the handshake byte has been exchanged (R28) -/
  handshakeDone : Bool
  /-- the role record (R147, R174, R190, R245) -/
  role : Option Role
  /-- `CMD.op` of the command accepted last (R31); says where a packet command returns -/
  cmd : Cmd
  /-- `ARG.len`, the operand of the packet command in progress (R31) -/
  len : Nat
  /-- RESULT (R31, R32) -/
  result : CmdResult
  /-- at least one command has ended since reset (R31) -/
  resultValid : Bool
  /-- the model's own: the value of the codec function evaluated last as an instruction since NEW or reset (log 7) -/
  codecOut : CodecOut
  /-- the parameters of R8: the five OPEN ones and the checksum function; nothing writes them -/
  config : Config
  /-- the environment's answers to the next channel reads (R52) -/
  chanRd : List ReadAnswer
  /-- the environment's answers to the next channel writes (R54) -/
  chanWrAns : List WriteAnswer
  /-- the bytes the channel has taken, oldest first (R54) -/
  chanWr : List Byte
  /-- the answers to the next source reads (R55) -/
  src : List SrcAnswer
  /-- the answers to the next sink writes (R56) -/
  sinkAns : List SinkAnswer
  /-- the bytes appended to the sink, oldest first (R56) -/
  sink : List Byte
  /-- the environment's answers after those lists, repeated for ever; nothing writes them (R143; log 2) -/
  again : Again
  /-- the host's next operations (R31, R75) -/
  host : List HostOp
  /-- the reset input (R260, R262) -/
  resetPin : Bool
  deriving DecidableEq, Repr

/-- The machine right after reset (R36). The values R36 leaves unspecified are DESIGN CHOICES (log 8, 9, 10, 11, 12, 30). -/
def State.reset : State :=
  { packetNumber := firstPacket
    x := Vector.replicate dataLen unwrittenByte
    xWritten := Vector.replicate dataLen false
    phase := .idle
    acc := 0
    attempt := 0
    outer := 0
    n := 0
    total := 0
    pos := 0
    handshakeDone := false
    role := none
    cmd := .new
    len := 0
    result := .ok 0
    resultValid := false
    codecOut := .nothing
    config := defaultConfig
    chanRd := []
    chanWrAns := []
    chanWr := []
    src := []
    sinkAns := []
    sink := []
    again := { chanRd := [], chanWrAns := [], src := [], sinkAns := [] }
    host := []
    resetPin := false }

end Sys2Proof.Machine
end

