-- ==== Sys2Proof/Machine/Flags.lean ====
section
/-! DEFINITION. The flags (R28, R29), the STATUS register (R31) and the admission of commands (R93, R147, R174, R190).
There are no arithmetic condition codes (R30). -/

namespace Sys2Proof.Machine

/-- `terminated`, represented as `phase = Terminated` (R29). -/
def State.terminatedFlag (s : State) : Bool := s.phase == .terminated

/-- `busy`: `phase` is neither Idle nor Terminated (R31). -/
def State.busy (s : State) : Bool := !(s.phase == .idle) && !(s.phase == .terminated)

/-- STATUS (R31). -/
structure Status where
  handshakeDone : Bool
  terminated : Bool
  busy : Bool
  deriving DecidableEq, Repr

/-- The STATUS register (R31). -/
def State.status (s : State) : Status :=
  { handshakeDone := s.handshakeDone, terminated := s.terminatedFlag, busy := s.busy }

/-- Has every `x[i]` been written since reset (R174)? -/
def State.bufferWritten (s : State) : Bool := s.xWritten.toList.all id

/-- Why NEW, RECEIVE or TRANSMIT is refused: they are admitted while `phase` is Idle or Terminated (R190, R195, R200). -/
def refusalNew (s : State) : Option Refusal := if s.busy then some .busy else none

/-- Why a packet command of the role `r` is refused: admitted only while `phase = Idle`, and only if no command of the
other role was issued since NEW or reset (R147, R174). -/
def refusalPacket (r : Role) (s : State) : Option Refusal :=
  if s.busy then some .busy
  else if s.terminatedFlag then some .terminated
  else if s.role = none ∨ s.role = some r then none
  else some .wrongRole

/-- Why RX_PACKET is refused (R147). -/
def refusalRx (s : State) : Option Refusal := refusalPacket .receiver s

/-- Why TX_PACKET is refused (R174): also "with `len = 128`, if some `x[i]` has not been written since reset the command is refused"
(R23, U9, D2). -/
def refusalTx (len : Nat) (s : State) : Option Refusal :=
  match refusalPacket .sender s with
  | some r => some r
  | none => if len = dataLen ∧ s.bufferWritten = false then some .bufferUnwritten else none

end Sys2Proof.Machine
end

