-- ==== Sys2Proof/Machine/Operands.lean ====
section
/-! DEFINITION. What a phase operates on: the port of its operation and its site (R24, R229), the byte a write site offers
(R132 to R142, R163 to R166), the answers a port gives next, the accesses to the packet buffer (R11, R23), and the checks on `cap` and `len` (R131, R161). -/

namespace Sys2Proof.Machine

/-- The port operation of each `phase` (R24). Idle and Terminated have none: the engine waits for the host. -/
def Phase.port : Phase → Option Port
  | .idle => none
  | .terminated => none
  | .rxHsNak => some .chanWr
  | .rxHeader => some .chanRd
  | .rxSeq => some .chanRd
  | .rxSeqCan => some .chanWr
  | .rxCmp => some .chanRd
  | .rxCmpCan => some .chanWr
  | .rxData _ => some .chanRd
  | .rxCksum => some .chanRd
  | .rxAck => some .chanWr
  | .rxNak => some .chanWr
  | .rxEotNak => some .chanWr
  | .rxEot2 => some .chanRd
  | .rxEot2Can => some .chanWr
  | .rxEotAck => some .chanWr
  | .rcSink => some .sink
  | .txHandshake => some .chanRd
  | .txHandshakeCan => some .chanWr
  | .txEot1Send => some .chanWr
  | .txEot1 => some .chanRd
  | .txEot1Can => some .chanWr
  | .txEot2Send => some .chanWr
  | .txEot2 => some .chanRd
  | .txEot2Can => some .chanWr
  | .txSoh => some .chanWr
  | .txSeq => some .chanWr
  | .txCmp => some .chanWr
  | .txData _ => some .chanWr
  | .txCksum => some .chanWr
  | .txReply => some .chanRd
  | .txReplyCan => some .chanWr
  | .trSrc => some .src

/-- The site of a `phase` (R24, R229). -/
def Phase.site : Phase → Option Site
  | .idle => none
  | .terminated => none
  | .rxHsNak => some .rxHsNak
  | .rxHeader => some .rxHeader
  | .rxSeq => some .rxSeq
  | .rxSeqCan => some .rxSeqCan
  | .rxCmp => some .rxCmp
  | .rxCmpCan => some .rxCmpCan
  | .rxData _ => some .rxData
  | .rxCksum => some .rxCksum
  | .rxAck => some .rxAck
  | .rxNak => some .rxNak
  | .rxEotNak => some .rxEotNak
  | .rxEot2 => some .rxEot2
  | .rxEot2Can => some .rxEot2Can
  | .rxEotAck => some .rxEotAck
  | .rcSink => some .rcSink
  | .txHandshake => some .txHandshake
  | .txHandshakeCan => some .txHandshakeCan
  | .txEot1Send => some .txEot1Send
  | .txEot1 => some .txEot1
  | .txEot1Can => some .txEot1Can
  | .txEot2Send => some .txEot2Send
  | .txEot2 => some .txEot2
  | .txEot2Can => some .txEot2Can
  | .txSoh => some .txSoh
  | .txSeq => some .txSeq
  | .txCmp => some .txCmp
  | .txData _ => some .txData
  | .txCksum => some .txCksum
  | .txReply => some .txReply
  | .txReplyCan => some .txReplyCan
  | .trSrc => some .trSrc

/-- Is the engine at a channel read site? -/
def State.atChanRead (s : State) : Bool := s.phase.port == some .chanRd

/-- The byte the engine offers to `CHAN_WR` at a write site; `none` at a phase that writes nothing. -/
def State.offeredByte (s : State) : Option Byte :=
  match s.phase with
  | .idle => none
  | .terminated => none
  | .rxHsNak => some nakByte
  | .rxHeader => none
  | .rxSeq => none
  | .rxSeqCan => some canByte
  | .rxCmp => none
  | .rxCmpCan => some canByte
  | .rxData _ => none
  | .rxCksum => none
  | .rxAck => some ackByte
  | .rxNak => some nakByte
  | .rxEotNak => some nakByte
  | .rxEot2 => none
  | .rxEot2Can => some canByte
  | .rxEotAck => some ackByte
  | .rcSink => none
  | .txHandshake => none
  | .txHandshakeCan => some canByte
  | .txEot1Send => some eotByte
  | .txEot1 => none
  | .txEot1Can => some canByte
  | .txEot2Send => some eotByte
  | .txEot2 => none
  | .txEot2Can => some canByte
  | .txSoh => some sohByte
  | .txSeq => some s.packetNumber
  | .txCmp => some (complementOf s.packetNumber)
  | .txData i => some (s.x.get i)
  | .txCksum => some (checksumOf s.config s.x.toList)
  | .txReply => none
  | .txReplyCan => some canByte
  | .trSrc => none

/-- The answers a port gives from now on: those listed, and once there are none the repeated ones (log 2). -/
def supply {α : Type} (listed again : List α) : List α :=
  match listed with
  | [] => again
  | a :: rest => a :: rest

/-- The answers to the next channel reads (R52). -/
def State.readAnswers (s : State) : List ReadAnswer := supply s.chanRd s.again.chanRd

/-- The answers to the next channel writes (R54). -/
def State.writeAnswers (s : State) : List WriteAnswer := supply s.chanWrAns s.again.chanWrAns

/-- The answers to the next source reads (R55). -/
def State.sourceAnswers (s : State) : List SrcAnswer := supply s.src s.again.src

/-- The answers to the next sink writes (R56). -/
def State.sinkAnswers (s : State) : List SinkAnswer := supply s.sinkAns s.again.sinkAns

/-- `x[i] <- v` (R11); the entry is written from then on (R23). -/
def State.setX (s : State) (i : Fin dataLen) (v : Byte) : State :=
  { s with x := s.x.set i.val v i.isLt, xWritten := s.xWritten.set i.val true i.isLt }

/-- The entries below `n` are kept, the others are 0x00 (R200, R64). -/
def padFrom (n : Nat) (x : Buffer) : Buffer :=
  Vector.mk (x.toList.take n ++ List.replicate (dataLen - n) padByte).toArray (by simp; omega)

/-- Every entry from `n` on is written (R200). -/
def writtenFrom (n : Nat) (w : Vector Bool dataLen) : Vector Bool dataLen :=
  Vector.mk (w.toList.take n ++ List.replicate (dataLen - n) true).toArray (by simp; omega)

/-- `for i in n .. 127: x[i] <- 0x00`, after which all of `x` is written (R200, R64): the entries below `n` are kept. -/
def State.padX (s : State) : State := { s with x := padFrom s.n s.x, xWritten := writtenFrom s.n s.xWritten }

/-- The phase after data byte `i` of a frame being read: the next data byte, or the checksum byte (R130). -/
def nextRxData (i : Fin dataLen) : Phase := if h : i.val + 1 < dataLen then .rxData ⟨i.val + 1, h⟩ else .rxCksum

/-- The phase after data byte `i` of a frame being written (R160). -/
def nextTxData (i : Fin dataLen) : Phase := if h : i.val + 1 < dataLen then .txData ⟨i.val + 1, h⟩ else .txCksum

/-- The buffer check of RX_PACKET: fewer than 128 bytes offered (R131, D29). -/
def rxBufferTooSmall (cap : Nat) : Bool := decide (cap < dataLen)

/-- The length check of TX_PACKET: neither 0 nor 128 (R161, D13). -/
def txBadLength (len : Nat) : Bool := !(len == 0) && !(len == dataLen)

end Sys2Proof.Machine
end

