-- ==== Sys2Proof/Machine/Ops.lean ====
section
/-! DEFINITION. The sequencer's shared operations: starting a packet command (R131, R132, R161, R162, R165), ending a
command (R13), raising an error (R240, with TRANSMIT's outer retry R203), what follows each port operation of R130, R160,
R195 and R200, and how a wire unit is taken from the channel. -/

namespace Sys2Proof.Machine

/-- `phase <- p` (R11). -/
def State.goto (s : State) (p : Phase) : State := { s with phase := p }

/-- The end of a command (R13, R32): RESULT is overwritten and the engine is in phase `p`, Idle or Terminated. `attempt` keeps its
last count, where R26 says that it does not survive the command and names no value (DESIGN CHOICE, log 32). -/
def endCommand (r : CmdResult) (p : Phase) (s : State) : State :=
  { s with result := r, resultValid := true, phase := p }

/-- Every register at its reset value, the streams and the parameters untouched: NEW (R190, R36, R261). The model's own `codecOut`
is cleared with the registers (DESIGN CHOICE, log 7). -/
def freshEngine (s : State) : State :=
  { State.reset with
    config := s.config
    chanRd := s.chanRd
    chanWrAns := s.chanWrAns
    chanWr := s.chanWr
    src := s.src
    sinkAns := s.sinkAns
    sink := s.sink
    again := s.again
    host := s.host
    resetPin := s.resetPin }

/-- The reset input's effect: exactly that of NEW, at any moment, with no RESULT for the command it stops (R260, R262). The
pin is released by the step that takes it (log 19). -/
def takeReset (s : State) : State := { freshEngine s with resetPin := false }

/-- RX_PACKET after its buffer check (R130): the handshake NAK if it is not yet done, else the header read. -/
def startRx (s : State) : State := if s.handshakeDone then s.goto .rxHeader else s.goto .rxHsNak

/-- One transmission of the frame: `attempt <- attempt + 1`, then SOH (R165, R166). -/
def sendFrame (s : State) : State := { s with attempt := s.attempt + 1, phase := .txSoh }

/-- TX_PACKET after its handshake (R160): the EOT exchange for `len = 0`, else `attempt <- 0` and the frame. -/
def afterHandshake (s : State) : State :=
  if s.len = 0 then s.goto .txEot1Send else sendFrame { s with attempt := 0 }

/-- TX_PACKET after its length check (R160, R162): the handshake read if it is not yet done. -/
def startTx (s : State) : State := if s.handshakeDone then afterHandshake s else s.goto .txHandshake

/-- Is it an `IoFailure` on a channel port with kind `Interrupted` (R203)? -/
def CmdError.interruptedChannel : CmdError → Bool
  | .ioFailure .chanRd .interrupted _ => true
  | .ioFailure .chanWr .interrupted _ => true
  | _ => false

/-- Does TRANSMIT re-issue the chunk instead of failing (R203)? Only for an interrupted channel, and never for the
empty-packet call (D15). -/
def outerRetry (e : CmdError) (s : State) : Bool :=
  s.cmd == .transmit && s.len == dataLen && e.interruptedChannel

/-- `raise e` (R13, R240): RESULT is written, the engine is Idle, nothing else changes. In a driver command the failure of
the packet command is the driver's (R240, R244), except that TRANSMIT re-issues an interrupted chunk, at most 10 commands in all
(R200, R203). -/
def raise (e : CmdError) (s : State) : State :=
  if outerRetry e s then
    if s.outer = maxOuterAttempts then endCommand (.err (.retryExhausted .outer)) .idle s
    else startTx { s with outer := s.outer + 1 }
  else endCommand (.err e) .idle s

/-- `return Ok(128)` of an accepted packet (R141): RECEIVE goes on to the sink (R195). -/
def packetReceived (s : State) : State :=
  match s.cmd with
  | .receive => s.goto .rcSink
  | .new => endCommand (.ok dataLen) .idle s
  | .rxPacket => endCommand (.ok dataLen) .idle s
  | .txPacket => endCommand (.ok dataLen) .idle s
  | .transmit => endCommand (.ok dataLen) .idle s

/-- `return Ok(128)` of an acknowledged packet (R168): TRANSMIT counts the genuine bytes and goes on to the next chunk
(R200, R202). `attempt` keeps its last count (DESIGN CHOICE, log 32). -/
def packetSent (s : State) : State :=
  match s.cmd with
  | .transmit => { s with total := s.total + s.n, n := 0, phase := .trSrc }
  | .new => endCommand (.ok dataLen) .idle s
  | .rxPacket => endCommand (.ok dataLen) .idle s
  | .txPacket => endCommand (.ok dataLen) .idle s
  | .receive => endCommand (.ok dataLen) .idle s

/-- `phase <- Terminated; return Ok(0)` (R136, R164): a driver returns its count (R195, R200). -/
def transferEnded (s : State) : State :=
  match s.cmd with
  | .receive => endCommand (.ok s.total) .terminated s
  | .transmit => endCommand (.ok s.total) .terminated s
  | .new => endCommand (.ok 0) .terminated s
  | .rxPacket => endCommand (.ok 0) .terminated s
  | .txPacket => endCommand (.ok 0) .terminated s

/-- The chunk is in hand (R200): `x` is padded; an empty chunk is the terminal call `TX_PACKET(0)`, any other is
`TX_PACKET(128)` with `outer` at 1. -/
def chunkLoaded (s : State) : State :=
  if s.n = 0 then startTx { s.padX with len := 0 }
  else startTx { s.padX with outer := 1, len := dataLen }

/-- A byte at an expected-byte site (R86, R88, R232): the expected value wins; else CAN is a cancel and writes nothing
(R222); else it is a violation. -/
def expectByte (e b : Byte) (site : Site) (onMatch onViolation : State) (s : State) : State :=
  if b = e then onMatch else if b = canByte then raise (.peerAbort site) s else onViolation

/-- A violation at a site whose CAN emission is a parameter (R227): the CAN write first, if the parameter says so. -/
def violate (emit : Bool) (canPhase : Phase) (site : Site) (s : State) : State :=
  if emit then s.goto canPhase else raise (.protocolViolation site) s

/-- The header byte (R85, R133). -/
def takeHeader (b : Byte) (s : State) : State :=
  if b = sohByte then s.goto .rxSeq
  else if b = eotByte then s.goto .rxEotNak
  else if b = canByte then raise (.peerAbort .rxHeader) s
  else raise (.protocolViolation .rxHeader) s

/-- Data byte `i` (R138): stored at this step, whatever its value (R87). -/
def takeData (i : Fin dataLen) (b : Byte) (s : State) : State := (s.setX i b).goto (nextRxData i)

/-- The checksum byte (R139, R140): the checksum is computed over `x` and compared. -/
def takeChecksum (b : Byte) (s : State) : State :=
  { s with
    acc := sum8 s.x.toList
    phase := if b = checksumOf s.config s.x.toList then .rxAck else .rxNak }

/-- The reply to a frame (R89, R168 to R170). -/
def takeReply (b : Byte) (s : State) : State :=
  if b = ackByte then packetSent { s with packetNumber := nextPacket s.packetNumber }
  else if b = nakByte then
    if s.attempt = maxAttempts then raise (.retryExhausted .inner) s else sendFrame s
  else if b = canByte then raise (.peerAbort .txReply) s
  else violate s.config.emitCanTxReply .txReplyCan .txReply s

/-- What the engine does with a byte `b` read at its read site. At a phase that reads no channel byte nothing happens. -/
def takeByte (b : Byte) (s : State) : State :=
  match s.phase with
  | .rxHeader => takeHeader b s
  | .rxSeq => expectByte s.packetNumber b .rxSeq (s.goto .rxCmp) (s.goto .rxSeqCan) s
  | .rxCmp => expectByte (complementOf s.packetNumber) b .rxCmp (s.goto (.rxData 0)) (s.goto .rxCmpCan) s
  | .rxData i => takeData i b s
  | .rxCksum => takeChecksum b s
  | .rxEot2 => expectByte eotByte b .rxEot2 (s.goto .rxEotAck) (violate s.config.emitCanRxEot2 .rxEot2Can .rxEot2 s) s
  | .txHandshake =>
    expectByte nakByte b .txHandshake (afterHandshake { s with handshakeDone := true })
      (violate s.config.emitCanTxHandshake .txHandshakeCan .txHandshake s) s
  | .txEot1 => expectByte nakByte b .txEot1 (s.goto .txEot2Send) (violate s.config.emitCanTxEot1 .txEot1Can .txEot1 s) s
  | .txEot2 => expectByte ackByte b .txEot2 (transferEnded s) (violate s.config.emitCanTxEot2 .txEot2Can .txEot2 s) s
  | .txReply => takeReply b s
  | _ => s

/-- What the engine does when a channel read answers `Fail(k)` (R52, R53): at a data byte the value 0x18 stands for it
(R138); at every other read site it is an `IoFailure` (R225, D10). -/
def readFailed (k : IoKind) (s : State) : State :=
  match s.phase with
  | .rxData i => takeData i canByte s
  | p =>
    match p.site with
    | some site => raise (.ioFailure .chanRd k site) s
    | none => s

/-- What follows an accepted channel write (R130, R160). -/
def byteWritten (s : State) : State :=
  match s.phase with
  | .rxHsNak => { s with handshakeDone := true, phase := .rxHeader }
  | .rxSeqCan => raise (.protocolViolation .rxSeq) s
  | .rxCmpCan => raise (.protocolViolation .rxCmp) s
  | .rxAck => packetReceived { s with packetNumber := nextPacket s.packetNumber }
  | .rxNak => s.goto .rxHeader
  | .rxEotNak => s.goto .rxEot2
  | .rxEot2Can => raise (.protocolViolation .rxEot2) s
  | .rxEotAck => transferEnded s
  | .txHandshakeCan => raise (.protocolViolation .txHandshake) s
  | .txEot1Send => s.goto .txEot1
  | .txEot1Can => raise (.protocolViolation .txEot1) s
  | .txEot2Send => s.goto .txEot2
  | .txEot2Can => raise (.protocolViolation .txEot2) s
  | .txSoh => s.goto .txSeq
  | .txSeq => s.goto .txCmp
  | .txCmp => s.goto (.txData 0)
  | .txData i => if i.val + 1 < dataLen then s.goto (nextTxData i) else { s with acc := sum8 s.x.toList, phase := .txCksum }
  | .txCksum => s.goto .txReply
  | .txReplyCan => raise (.protocolViolation .txReply) s
  | _ => s

/-- What follows a failed channel write (R54, R243): an `IoFailure` at the site of the write. -/
def writeFailed (k : IoKind) (s : State) : State :=
  match s.phase.site with
  | some site => raise (.ioFailure .chanWr k site) s
  | none => s

/-- A source byte (R200): `x[n] <- b; n <- n + 1`, and the chunk is complete at 128. -/
def takeSourceByte (b : Byte) (s : State) : State :=
  let t := { s with
    x := s.x.setIfInBounds s.n b
    xWritten := s.xWritten.setIfInBounds s.n true
    n := s.n + 1
    pos := s.pos + 1 }
  if t.n < dataLen then t else chunkLoaded t

/-- An accepted sink write (R56, R195): the 128 bytes are appended, `total` grows by 128, and RX_PACKET is issued again. -/
def sinkWritten (s : State) : State :=
  startRx { s with sink := s.sink ++ s.x.toList, total := s.total + dataLen, len := dataLen }

/-- The bytes of a wire unit stand at the head of `CHAN_RD`: the engine takes them one at a time while it is at a read
site; from the first byte it does not read, they stay at the head of the channel (R68, R137, R173, R230; log 6). -/
def takeUnit : List Byte → State → State
  | [], s => s
  | b :: bs, s =>
    if s.atChanRead then takeUnit bs (takeByte b s)
    else { s with chanRd := (b :: bs).map .byte ++ s.chanRd }

end Sys2Proof.Machine
end

