-- ==== Sys2Proof/Machine/CodecFns.lean ====
section
/-! DEFINITION. The codec functions as instructions (R94, R110): pure functions that touch no port and no state but the
transient `acc` (R25); the value stands in the model's own field `codecOut` (log 7). -/

namespace Sys2Proof.Machine

/-- CHECKSUM (R111). -/
def execChecksum (d : List Byte) (s : State) : Host.Outcome State Fault Refusal :=
  if d.length = dataLen then .next { s with acc := sum8 d, codecOut := .byte (checksumOf s.config d) } else .refused .illFormed

/-- COMPLEMENT (R113). -/
def execComplement (n : Byte) (s : State) : Host.Outcome State Fault Refusal :=
  .next { s with codecOut := .byte (complementOf n) }

/-- FRAME (R115); its CHECKSUM leaves `acc` (R110). -/
def execFrame (n : Byte) (d : List Byte) (s : State) : Host.Outcome State Fault Refusal :=
  if d.length = dataLen then .next { s with acc := sum8 d, codecOut := .bytes (frameOf s.config n d) } else .refused .illFormed

/-- DEFRAME (R116); its CHECKSUM leaves `acc` (R110, log 10). -/
def execDeframe (n : Byte) (f : List Byte) (s : State) : Host.Outcome State Fault Refusal :=
  if f.length = frameLen then .next { s with acc := sum8 (frameData f), codecOut := .deframed (deframeOf s.config n f) }
  else .refused .illFormed

end Sys2Proof.Machine
end

