-- ==== Sys2Proof/Machine/Commands.lean ====
section
/-! DEFINITION. The commands NEW, RX_PACKET and TX_PACKET: the step in which the engine accepts a write of `CMD`. A
refused command changes no state and has no meaning (R93, R147, R174). The port operations that follow are steps of their own
(R14; log 1). -/

namespace Sys2Proof.Machine

/-- NEW (R190). -/
def execNew (s : State) : Host.Outcome State Fault Refusal :=
  match refusalNew s with
  | some r => .refused r
  | none => .next (freshEngine s)

/-- RX_PACKET (R130, R131): the role is the receiver's from now on (R245; log 16). -/
def execRxPacket (cap : Nat) (s : State) : Host.Outcome State Fault Refusal :=
  match refusalRx s with
  | some r => .refused r
  | none =>
    let t := { s with cmd := .rxPacket, len := cap, role := some .receiver }
    .next (if rxBufferTooSmall cap then raise (.contractViolation .rxBufferTooSmall) t else startRx t)

/-- TX_PACKET (R160, R161): the role is the sender's from now on (R245; log 16). -/
def execTxPacket (len : Nat) (s : State) : Host.Outcome State Fault Refusal :=
  match refusalTx len s with
  | some r => .refused r
  | none =>
    let t := { s with cmd := .txPacket, len := len, role := some .sender }
    .next (if txBadLength len then raise (.contractViolation .txBadLength) t else startTx t)

end Sys2Proof.Machine
end

