-- ==== Sys2Proof/Machine/Drivers.lean ====
section
/-! DEFINITION. The driver commands RECEIVE and TRANSMIT (R102): NEW, and then the first port operation of the loop. The
loop itself is in `Machine/Ops.lean`: where a packet command returns (R195, R200) and the outer retry (R203). -/

namespace Sys2Proof.Machine

/-- RECEIVE (R195): NEW, `total <- 0`, then `RX_PACKET(cap = 128)`. -/
def execReceive (s : State) : Host.Outcome State Fault Refusal :=
  match refusalNew s with
  | some r => .refused r
  | none => .next (startRx { freshEngine s with cmd := .receive, role := some .receiver, len := dataLen, total := 0 })

/-- TRANSMIT (R200): NEW, `total <- 0`, `n <- 0`, then the first source read. -/
def execTransmit (s : State) : Host.Outcome State Fault Refusal :=
  match refusalNew s with
  | some r => .refused r
  | none => .next { freshEngine s with cmd := .transmit, role := some .sender, total := 0, n := 0, phase := .trSrc }

end Sys2Proof.Machine
end

