-- ==== Sys2Proof/Machine/Frames.lean ====
section
/-! DEFINITION. The meaning of the data frame (R82): its 132 bytes stand at the head of `CHAN_RD`, and the engine reads them
one after the other (R67) as R133, R137 and R138 to R140 say. -/

namespace Sys2Proof.Machine

/-- DATA (R82, R91, R133, R137 to R140). -/
def execData (seq cmp : Byte) (d : List Byte) (ck : Byte) (s : State) : Host.Outcome State Fault Refusal :=
  if d.length = dataLen then .next (takeUnit (frameBytes seq cmp d ck) s) else .refused .illFormed

end Sys2Proof.Machine
end

