-- ==== Sys2Proof/Machine/Symbols.lean ====
section
/-! DEFINITION. The meanings of the five symbols (R81): the byte stands at the head of `CHAN_RD`. What it does is decided by
the site at which it is read (R84): R85 at `RX_HEADER`, R86 at the receiver's expected-byte sites, R87 at the raw sites, R88
and R89 at the sender's. At a phase that reads no channel byte it waits in the channel (R173 g, R230; log 6). -/

namespace Sys2Proof.Machine

/-- SOH (R85, R81). -/
def execSoh (s : State) : Host.Outcome State Fault Refusal := .next (takeUnit [sohByte] s)

/-- EOT (R85, R86, R81). -/
def execEot (s : State) : Host.Outcome State Fault Refusal := .next (takeUnit [eotByte] s)

/-- ACK (R89, R88, R81). -/
def execAck (s : State) : Host.Outcome State Fault Refusal := .next (takeUnit [ackByte] s)

/-- NAK (R89, R88, R81). -/
def execNak (s : State) : Host.Outcome State Fault Refusal := .next (takeUnit [nakByte] s)

/-- CAN (R226, R222, R81). -/
def execCan (s : State) : Host.Outcome State Fault Refusal := .next (takeUnit [canByte] s)

end Sys2Proof.Machine
end

