-- ==== Sys2Proof/Machine/Dispatch.lean ====
section
/-! DEFINITION. One arm per instruction. -/

namespace Sys2Proof.Machine

def exec (i : Instr) (s : State) : Host.Outcome State Fault Refusal :=
  match i with
  | .soh => Sys2Proof.Machine.execSoh s
  | .eot => Sys2Proof.Machine.execEot s
  | .ack => Sys2Proof.Machine.execAck s
  | .nak => Sys2Proof.Machine.execNak s
  | .can => Sys2Proof.Machine.execCan s
  | .data seq cmp d ck => Sys2Proof.Machine.execData seq cmp d ck s
  | .new => Sys2Proof.Machine.execNew s
  | .rxPacket cap => Sys2Proof.Machine.execRxPacket cap s
  | .txPacket len => Sys2Proof.Machine.execTxPacket len s
  | .receive => Sys2Proof.Machine.execReceive s
  | .transmit => Sys2Proof.Machine.execTransmit s
  | .checksum d => Sys2Proof.Machine.execChecksum d s
  | .complement n => Sys2Proof.Machine.execComplement n s
  | .frame n d => Sys2Proof.Machine.execFrame n d s
  | .deframe n f => Sys2Proof.Machine.execDeframe n f s

end Sys2Proof.Machine
end

