-- ==== Sys2Proof/Machine/HostPort.lean ====
section
/-! DEFINITION. The host interface of R31: reads of RESULT, STATUS, `packet_number` and `x[i]`, writes of `x[i]`, and the
numeric codes of R92, R220 and R229. -/

namespace Sys2Proof.Machine

/-- `CMD.op` codes (R92). -/
def Cmd.code : Cmd → BitVec 3
  | .new => 0
  | .rxPacket => 1
  | .txPacket => 2
  | .receive => 3
  | .transmit => 4

/-- Site codes (R229). -/
def Site.code : Site → Nat
  | .rxHsNak => 1
  | .rxHeader => 2
  | .rxSeq => 3
  | .rxSeqCan => 4
  | .rxCmp => 5
  | .rxCmpCan => 6
  | .rxData => 7
  | .rxCksum => 8
  | .rxAck => 9
  | .rxNak => 10
  | .rxEotNak => 11
  | .rxEot2 => 12
  | .rxEot2Can => 13
  | .rxEotAck => 14
  | .rcSink => 15
  | .txHandshake => 16
  | .txHandshakeCan => 17
  | .txEot1Send => 18
  | .txEot1 => 19
  | .txEot1Can => 20
  | .txEot2Send => 21
  | .txEot2 => 22
  | .txEot2Can => 23
  | .txSoh => 24
  | .txSeq => 25
  | .txCmp => 26
  | .txData => 27
  | .txCksum => 28
  | .txReply => 29
  | .txReplyCan => 30
  | .trSrc => 31

/-- `kind` codes (R220). -/
def CmdError.kindCode : CmdError → Nat
  | .contractViolation _ => 1
  | .protocolViolation _ => 2
  | .peerAbort _ => 3
  | .retryExhausted _ => 4
  | .ioFailure _ _ _ => 5

/-- `site` of an error: code 0 (none) for the two kinds that record a sub-cause instead (R220, R229; log 21). -/
def CmdError.siteCode : CmdError → Nat
  | .contractViolation _ => 0
  | .protocolViolation site => site.code
  | .peerAbort site => site.code
  | .retryExhausted _ => 0
  | .ioFailure _ _ site => site.code

/-- Sub-cause codes (R229), for the two kinds that have one. -/
def CmdError.subCauseCode : CmdError → Option Nat
  | .contractViolation .rxBufferTooSmall => some 1
  | .contractViolation .txBadLength => some 2
  | .retryExhausted .inner => some 1
  | .retryExhausted .outer => some 2
  | .protocolViolation _ => none
  | .peerAbort _ => none
  | .ioFailure _ _ _ => none

/-- `io_kind` codes (R229), valid only if `kind = 5` (R31). -/
def CmdError.ioKindCode : CmdError → Option Nat
  | .ioFailure _ .interrupted _ => some 1
  | .ioFailure _ (.other _) _ => some 2
  | .contractViolation _ => none
  | .protocolViolation _ => none
  | .peerAbort _ => none
  | .retryExhausted _ => none

/-- The fields of RESULT (R31): `count` is valid if `ok`, the others if not. -/
structure ResultFields where
  ok : Bool
  count : Option Nat
  kind : Option Nat
  site : Option Nat
  subCause : Option Nat
  ioKind : Option Nat
  deriving DecidableEq, Repr

/-- RESULT as its fields (R31, R32). -/
def CmdResult.fields : CmdResult → ResultFields
  | .ok count => { ok := true, count := some count, kind := none, site := none, subCause := none, ioKind := none }
  | .err e =>
    { ok := false, count := none, kind := some e.kindCode, site := some e.siteCode, subCause := e.subCauseCode,
      ioKind := e.ioKindCode }

/-- The host reads RESULT: valid while not busy and once a command has ended; "a host read before that is `refuse`" (R31, U11). -/
def hostReadResult (s : State) : Except Refusal CmdResult :=
  if s.busy then .error .busy else if s.resultValid then .ok s.result else .error .resultNotValid

/-- The host reads `packet_number` (R31). -/
def hostReadPacketNumber (s : State) : Byte := s.packetNumber

/-- The host reads STATUS (R31). -/
def hostReadStatus (s : State) : Status := s.status

/-- The host reads `x[i]`: only while not busy (R23, R31), and only an entry that holds a value: "reads by the host before
a write are `refuse`" (U11). -/
def hostReadX (i : Fin dataLen) (s : State) : Except Refusal Byte :=
  if s.busy then .error .busy else if s.xWritten.get i then .ok (s.x.get i) else .error .bufferUnwritten

/-- The host writes `x[i]`: only while not busy (R23, R31; log 22). -/
def hostWriteX (i : Fin dataLen) (v : Byte) (s : State) : Host.Outcome State Fault Refusal :=
  if s.busy then .refused .busy else .next (s.setX i v)

end Sys2Proof.Machine
end

