-- ==== Sys2Proof/Machine/Fetch.lean ====
section
/-! DEFINITION. What a step does, by the port of the phase: the engine takes the next command from the host while it is not
busy (R31, R75), else it performs its port operation (R14). A port that the environment has not answered leaves the engine with
no step (R57). -/

namespace Sys2Proof.Machine

/-- A step while Idle or Terminated (R36, R75): the head of the host's list. A command is decoded and run; `CMD.op` 5 to 7 is
refused (R93). -/
def hostStep (s : State) : Host.Outcome State Fault Refusal :=
  match s.host with
  | [] => .fault .waitingForCommand
  | .writeX i v :: rest => hostWriteX i v { s with host := rest }
  | .command op arg :: rest =>
    match decode (.cmd op arg) with
    | .ok i => exec i { s with host := rest }
    | .error _ => .refused (.reservedCommand op)

/-- A step at a channel read site (R52, R53): a byte that is a symbol is run as one, any other byte is what its site makes of
it (R85 to R90). -/
def readStep (s : State) : Host.Outcome State Fault Refusal :=
  match s.readAnswers with
  | [] => .fault (.waiting .chanRd)
  | .fail k :: rest => .next (readFailed k { s with chanRd := rest })
  | .byte b :: rest =>
    match decode (.wire [b]) with
    | .ok i => exec i { s with chanRd := rest }
    | .error _ => .next (takeByte b { s with chanRd := rest })

/-- A step at a channel write site (R54). -/
def writeStep (s : State) : Host.Outcome State Fault Refusal :=
  match s.writeAnswers with
  | [] => .fault (.waiting .chanWr)
  | .accepted :: rest =>
    .next (byteWritten { s with chanWrAns := rest, chanWr := s.chanWr ++ s.offeredByte.toList })
  | .fail k wentOut :: rest =>
    .next (writeFailed k { s with
      chanWrAns := rest
      chanWr := if wentOut then s.chanWr ++ s.offeredByte.toList else s.chanWr })

/-- A step at `TR_SRC` (R55, R200): a byte, a failure, or `End` where there are no more answers (log 3). -/
def sourceStep (s : State) : Host.Outcome State Fault Refusal :=
  match s.sourceAnswers with
  | [] => .next (chunkLoaded s)
  | .byte b :: rest => .next (takeSourceByte b { s with src := rest })
  | .fail k :: rest => .next (raise (.ioFailure .src k .trSrc) { s with src := rest })

/-- A step at `RC_SINK` (R56, R195). A failed sink write appends nothing (log 18). -/
def sinkStep (s : State) : Host.Outcome State Fault Refusal :=
  match s.sinkAnswers with
  | [] => .fault (.waiting .sink)
  | .accepted :: rest => .next (sinkWritten { s with sinkAns := rest })
  | .fail k :: rest => .next (raise (.ioFailure .sink k .rcSink) { s with sinkAns := rest })

/-- The port operation of the engine's phase, or the host's next operation if it has none. -/
def portStep (s : State) : Host.Outcome State Fault Refusal :=
  match s.phase.port with
  | none => hostStep s
  | some .chanRd => readStep s
  | some .chanWr => writeStep s
  | some .src => sourceStep s
  | some .sink => sinkStep s

/-- A read site that expects the symbol `b`: the sender's reply site for ACK and NAK, the receiver's header site for any
other (R85, R89). -/
def symbolSite (b : Byte) : Phase := if b = ackByte ∨ b = nakByte then .txReply else .rxHeader

/-- The state in which the very next step fetches the word: a command at the head of the host's list, with the engine not
busy; a wire unit at the head of `CHAN_RD`, with the engine at a read site (log 24). -/
def placeFetchWord (s : State) (nbits w : Nat) : State :=
  match tableCode nbits w with
  | some (.cmd op arg) =>
    { s with
      resetPin := false
      phase := if s.busy then .idle else s.phase
      host := .command op arg :: s.host }
  | some (.wire bytes) =>
    { s with
      resetPin := false
      phase := if s.atChanRead then s.phase else symbolSite (bytes.headD sohByte)
      chanRd := bytes.map .byte ++ s.chanRd }
  | none => s

end Sys2Proof.Machine
end

