-- ==== Sys2Proof/Machine/Step.lean ====
section
/-! DEFINITION. One step: the reset input first (R262), then the operation of the engine's phase (R14). -/

namespace Sys2Proof.Machine

/-- One step of the engine. -/
def step (s : State) : Host.Outcome State Fault Refusal :=
  if s.resetPin then .next (takeReset s) else portStep s

/-- `s` with a table row's word placed where the next step fetches it (log 24). -/
def State.withFetchWord (s : State) (nbits w : Nat) : State := placeFetchWord s nbits w

end Sys2Proof.Machine
end

