-- ==== Sys2Proof/Machine/Pair.lean ====
section
/-! DEFINITION. Two engines joined by the clean channel of R62: each has its own complete state (R248), and they share nothing
but the two queues of bytes. The queue toward an engine is its `chanRd`. Which engine moves next is a schedule, a list (R248:
"any agent with an enabled step may take it"; log 27). -/

namespace Sys2Proof.Machine

/-- A sender-role engine and a receiver-role engine (R248). -/
structure Pair where
  sender : State
  receiver : State
  deriving DecidableEq, Repr

/-- The clean channel always accepts a write, and the sink has room (R62, R206). -/
def acceptWrites (s : State) : State := { s with chanWrAns := [.accepted], sinkAns := [.accepted] }

/-- The bytes `source` has written move to the back of `target`'s queue, unaltered and in order (R62). -/
def arrived (source target : State) : State :=
  { target with chanRd := target.chanRd ++ source.chanWr.map .byte }

/-- The channel has taken what the engine wrote. -/
def drained (s : State) : State := { s with chanWr := [] }

/-- The engine named by the schedule takes one step; an engine with no step (R57) leaves the pair as it is. -/
def Pair.next (who : Role) (p : Pair) : Pair :=
  match who with
  | .sender =>
    match step (acceptWrites p.sender) with
    | .next s => { sender := drained s, receiver := arrived s p.receiver }
    | .fault _ => p
    | .refused _ => p
  | .receiver =>
    match step (acceptWrites p.receiver) with
    | .next s => { sender := arrived s p.sender, receiver := drained s }
    | .fault _ => p
    | .refused _ => p

/-- The pair under a schedule. -/
def Pair.run : List Role → Pair → Pair
  | [], p => p
  | who :: rest, p => Pair.run rest (p.next who)

/-- Two engines of one implementation `c` after reset, with TRANSMIT of `D` and RECEIVE issued (R206). -/
def transferOf (c : Config) (D : List Byte) : Pair :=
  { sender := { State.reset with config := c, host := [.command 4 0], src := D.map .byte }
    receiver := { State.reset with config := c, host := [.command 3 0] } }

end Sys2Proof.Machine
end

