-- ==== Sys2Proof/Safety.lean ====
section
/-! DEFINITION. The terms claims are made in: runs of the engine, the end of a command as the spec words it, the wire form
of a transfer, and what holds of the engine in every state a run reaches (`State.Inv`). Nothing here is used by the
machine; it writes the spec's numbers where the machine has the named constants of R7, so that a claim fixes their values. -/

namespace Sys2Proof.Machine

/-- `k` steps of the engine. -/
def runSteps (k : Nat) (s : State) : Host.Outcome State Fault Refusal := Host.Core.run Sys2Proof.core k s

/-- The end of a command by `raise e` (R13): RESULT holds the error, the engine is Idle, nothing else changes. -/
def failedWith (e : CmdError) (s : State) : State :=
  { s with result := .err e, resultValid := true, phase := .idle }

/-- The end of a command by `return Ok(count)` in phase `p` (R13). -/
def returned (count : Nat) (p : Phase) (s : State) : State :=
  { s with result := .ok count, resultValid := true, phase := p }

/-- "`ChanWrite(CAN)` then `raise ProtocolViolation(site)`" (R86, R88, R89): at the phase `p` the accepted write appends 0x18, and
the command ends with the violation. -/
def CanThenViolation (p : Phase) (site : Site) : Prop :=
  ∀ (s : State) (rest : List WriteAnswer),
    s.resetPin = false → s.phase = p → s.writeAnswers = .accepted :: rest →
    step s = .next (failedWith (.protocolViolation site)
      { s with chanWrAns := rest, chanWr := s.chanWr ++ [0x18] })

/-- The byte a data read yields: a failure stands for 0x18 (R53, R138). -/
def ReadAnswer.dataValue : ReadAnswer → Byte
  | .byte b => b
  | .fail _ => 0x18

/-- `n` accepted channel writes. -/
def accepts (n : Nat) : List WriteAnswer := List.replicate n .accepted

/-- The premise of a claim that needs a particular checksum (R111): the implementation's function is the normative one. -/
def NormativeChecksum (c : Config) : Prop := ∀ d : List Byte, checksumOf c d = cksum d

/-- A chunk as TRANSMIT puts it in `x`: extended to 128 bytes with 0x00 (R64). -/
def padChunk (c : List Byte) : List Byte := c ++ List.replicate (128 - c.length) 0x00

/-- The chunks of a source, cut at multiples of 128 from its start, the last one padded (R64, R201); `fuel` bounds their
number, and the source's length is enough. -/
def chunksUpTo : Nat → List Byte → List (List Byte)
  | 0, _ => []
  | fuel + 1, D => if D = [] then [] else padChunk (D.take 128) :: chunksUpTo fuel (D.drop 128)

/-- The packets of a source `D` (R201). -/
def packetsOf (D : List Byte) : List (List Byte) := chunksUpTo D.length D

/-- The frames of the packets `ds`, numbered from `n` with wrap-around (R115, R114). -/
def framesFrom (c : Config) : Byte → List (List Byte) → List Byte
  | _, [] => []
  | n, d :: ds => frameOf c n d ++ framesFrom c (nextPacket n) ds

/-- `packet_number` after `k` packets from `n` (R22). -/
def packetAfter : Nat → Byte → Byte
  | 0, n => n
  | k + 1, n => packetAfter k (nextPacket n)

/-- Is the instruction one of the five host commands (R92)? -/
def isCommand : Instr → Bool
  | .new => true
  | .rxPacket _ => true
  | .txPacket _ => true
  | .receive => true
  | .transmit => true
  | .soh => false
  | .eot => false
  | .ack => false
  | .nak => false
  | .can => false
  | .data _ _ _ _ => false
  | .checksum _ => false
  | .complement _ => false
  | .frame _ _ => false
  | .deframe _ _ => false

/-- Is the instruction one of the four codec functions, which have no encoding (R94)? -/
def isCodecFunction : Instr → Bool
  | .checksum _ => true
  | .complement _ => true
  | .frame _ _ => true
  | .deframe _ _ => true
  | .new => false
  | .rxPacket _ => false
  | .txPacket _ => false
  | .receive => false
  | .transmit => false
  | .soh => false
  | .eot => false
  | .ack => false
  | .nak => false
  | .can => false
  | .data _ _ _ _ => false

/-- The role whose commands contain the phase (R24). -/
def Phase.owner : Phase → Option Role
  | .idle => none
  | .terminated => none
  | .rxHsNak => some .receiver
  | .rxHeader => some .receiver
  | .rxSeq => some .receiver
  | .rxSeqCan => some .receiver
  | .rxCmp => some .receiver
  | .rxCmpCan => some .receiver
  | .rxData _ => some .receiver
  | .rxCksum => some .receiver
  | .rxAck => some .receiver
  | .rxNak => some .receiver
  | .rxEotNak => some .receiver
  | .rxEot2 => some .receiver
  | .rxEot2Can => some .receiver
  | .rxEotAck => some .receiver
  | .rcSink => some .receiver
  | .txHandshake => some .sender
  | .txHandshakeCan => some .sender
  | .txEot1Send => some .sender
  | .txEot1 => some .sender
  | .txEot1Can => some .sender
  | .txEot2Send => some .sender
  | .txEot2 => some .sender
  | .txEot2Can => some .sender
  | .txSoh => some .sender
  | .txSeq => some .sender
  | .txCmp => some .sender
  | .txData _ => some .sender
  | .txCksum => some .sender
  | .txReply => some .sender
  | .txReplyCan => some .sender
  | .trSrc => some .sender

/-- The phases of a handshake not yet done (R132, R162). -/
def Phase.inHandshake : Phase → Bool
  | .rxHsNak => true
  | .txHandshake => true
  | .txHandshakeCan => true
  | _ => false

/-- The phases of a TX_PACKET command that sends a frame (R166, R167, R170). -/
def Phase.inFrame : Phase → Bool
  | .txSoh => true
  | .txSeq => true
  | .txCmp => true
  | .txData _ => true
  | .txCksum => true
  | .txReply => true
  | .txReplyCan => true
  | _ => false

/-- The phases of a TX_PACKET command that ends the transfer (R163, R164). -/
def Phase.inEot : Phase → Bool
  | .txEot1Send => true
  | .txEot1 => true
  | .txEot1Can => true
  | .txEot2Send => true
  | .txEot2 => true
  | .txEot2Can => true
  | _ => false

/-- The `*_CAN` phases, with the site of the violation each reports (R227). -/
def Phase.canOf : Phase → Option Site
  | .rxSeqCan => some .rxSeq
  | .rxCmpCan => some .rxCmp
  | .rxEot2Can => some .rxEot2
  | .txHandshakeCan => some .txHandshake
  | .txEot1Can => some .txEot1
  | .txEot2Can => some .txEot2
  | .txReplyCan => some .txReply
  | _ => none

/-- Does RESULT hold `Ok` (R32)? -/
def CmdResult.isOk : CmdResult → Bool
  | .ok _ => true
  | .err _ => false

/-- How many leading entries of `x` the phase has certainly filled (R138, R174, R200). -/
def State.filled (s : State) : Nat :=
  match s.phase with
  | .rxData i => i.val
  | .rxCksum => 128
  | .rxAck => 128
  | .rxNak => 128
  | .rcSink => 128
  | .trSrc => s.n
  | .txHandshake => if s.len = 128 then 128 else 0
  | .txHandshakeCan => if s.len = 128 then 128 else 0
  | p => if p.inFrame then 128 else 0

/-- The counters stay in the ranges of R26 and R27, and `TR_SRC` is only reached with room in the chunk (R200). -/
abbrev CountersInRange (s : State) : Prop :=
  s.attempt ≤ 10 ∧ s.outer ≤ 10 ∧ s.n ≤ 128 ∧ (s.phase = .trSrc → s.n < 128)

/-- The engine serves the role its phase belongs to, and runs a command of that role (R245). -/
abbrev ServesItsRole (s : State) : Prop :=
  (s.phase.owner = none ∨ s.phase.owner = s.role) ∧
  (s.phase.owner = some .receiver → s.cmd = .rxPacket ∨ s.cmd = .receive) ∧
  (s.phase.owner = some .sender → s.cmd = .txPacket ∨ s.cmd = .transmit) ∧
  (s.phase = .rcSink → s.cmd = .receive) ∧
  (s.phase = .trSrc → s.cmd = .transmit)

/-- One handshake, before the first packet (R20, R28): it is pending exactly in the handshake phases, and done in every other
phase of a packet command and after termination. -/
abbrev HandshakeFirst (s : State) : Prop :=
  (s.phase.inHandshake = true → s.handshakeDone = false) ∧
  (s.phase.inHandshake = false → s.phase ≠ .idle → s.phase ≠ .trSrc → s.handshakeDone = true)

/-- The operand of the packet command in progress has passed its check (R131, R161). -/
abbrev OperandChecked (s : State) : Prop :=
  (s.phase.owner = some .receiver → 128 ≤ s.len) ∧
  (s.phase.inFrame = true → s.len = 128 ∧ 1 ≤ s.attempt) ∧
  (s.phase.inEot = true → s.len = 0) ∧
  (s.phase = .txHandshake → s.len = 0 ∨ s.len = 128) ∧
  (s.phase = .txHandshakeCan → s.len = 0 ∨ s.len = 128)

/-- No entry of `x` is sent, summed or handed to the sink before something wrote it (R23, R174). -/
abbrev BufferFilled (s : State) : Prop := ∀ i : Fin dataLen, i.val < s.filled → s.xWritten.get i = true

/-- RECEIVE counts whole packets (R196), and a terminated engine has returned `Ok` (R29). -/
abbrev ResultSound (s : State) : Prop :=
  (s.cmd = .receive → s.total % 128 = 0) ∧
  (s.phase = .terminated → s.resultValid = true ∧ s.result.isOk = true)

/-- What holds at reset and is kept by every step. -/
def State.Inv (s : State) : Prop :=
  CountersInRange s ∧ ServesItsRole s ∧ HandshakeFirst s ∧ OperandChecked s ∧ BufferFilled s ∧ ResultSound s

end Sys2Proof.Machine
end

