-- ==== Sys2Proof/Certificates/Slice0/Obligations.lean ====
section
/-! DEFINITION. The statements for the provers, from the numbered rules of `spec/`. A statement that gives a whole next
state gives its frame with it: every field not named in the record update is unchanged, the streams (the block's only storage
outside its registers) among them. -/

open Sys2Proof Sys2Proof.Machine

/-! ### Encoding -/

/-- R81, R82, R92: words written out from the spec's tables decode to the instructions they stand for. -/
def Obligations.SpecWordsDecode : Prop :=
  decode (.wire [0x01]) = .ok .soh ∧
  decode (.wire [0x04]) = .ok .eot ∧
  decode (.wire [0x06]) = .ok .ack ∧
  decode (.wire [0x15]) = .ok .nak ∧
  decode (.wire [0x18]) = .ok .can ∧
  decode (.cmd 0 0) = .ok .new ∧
  decode (.cmd 1 128) = .ok (.rxPacket 128) ∧
  decode (.cmd 2 128) = .ok (.txPacket 128) ∧
  decode (.cmd 3 0) = .ok .receive ∧
  decode (.cmd 4 0) = .ok .transmit ∧
  decode (.wire ([0x01, 0x02, 0xFD, 0x81, 0x82] ++ List.replicate 126 0x00 ++ [0x03])) =
    .ok (.data 0x02 0xFD ([0x81, 0x82] ++ List.replicate 126 0x00) 0x03)

/-- Decoding the words of a well-formed instruction gives it back, with every operand at every value; the only instructions
without words are the four codec functions (R94). -/
def Obligations.DecodeEncodeRoundTrip : Prop :=
  ∀ i : Instr, i.WellFormed →
    match encode i with
    | some c => decode c = .ok i ∧ isCodecFunction i = false
    | none => isCodecFunction i = true

/-- R80: whatever the decoder accepts on the wire is one byte or 132 bytes and is exactly the encoding of the well-formed
instruction it gives; 132 bytes are accepted exactly when they begin with SOH, and one byte exactly when it is one of the five
symbols. -/
def Obligations.WireUnitsAreSymbolsAndFrames : Prop :=
  (∀ (bytes : List Byte) (i : Instr), decode (.wire bytes) = .ok i →
    encode i = some (.wire bytes) ∧ i.WellFormed ∧ (bytes.length = 1 ∨ bytes.length = 132)) ∧
  (∀ f : List Byte, f.length = 132 → ((∃ i, decode (.wire f) = .ok i) ↔ f.head? = some 0x01)) ∧
  (∀ b : Byte, (∃ i, decode (.wire [b]) = .ok i) ↔ b ∈ [0x01, 0x04, 0x06, 0x15, 0x18])

/-- R93: a write of a reserved code is refused, and every command is refused while the engine is busy. -/
def Obligations.ReservedAndBusyCommandsRefused : Prop :=
  (∀ (s : State) (op : BitVec 3) (arg : Nat) (rest : List HostOp),
    s.resetPin = false → s.busy = false → s.host = .command op arg :: rest → 5 ≤ op.toNat →
    step s = .refused (.reservedCommand op)) ∧
  (∀ (s : State) (i : Instr), s.busy = true → isCommand i = true → exec i s = .refused .busy)

/-- While the engine is not busy, a step runs the instruction the head of the host's list decodes to, or makes the host's write of a
packet-buffer register; while it is at a channel read site, a step runs the symbol the channel's next byte decodes to. The step adds
only that the words are consumed. That accepting a command and a host write of one `x[i]` are a step each is the model's choice (log
1), and that the host may write `x` while Terminated its reading (log 22). -/
def Obligations.StepRunsDecodedInstruction : Prop :=
  (∀ (s : State) (op : BitVec 3) (arg : Nat) (rest : List HostOp) (i : Instr),
    s.resetPin = false → s.busy = false → s.host = .command op arg :: rest → decode (.cmd op arg) = .ok i →
    step s = exec i { s with host := rest }) ∧
  (∀ (s : State) (i : Fin dataLen) (v : Byte) (rest : List HostOp),
    s.resetPin = false → s.busy = false → s.host = .writeX i v :: rest →
    step s = .next { s with host := rest, x := s.x.set i.val v, xWritten := s.xWritten.set i.val true }) ∧
  (∀ (s : State) (b : Byte) (rest : List ReadAnswer) (i : Instr),
    s.resetPin = false → s.phase.port = some .chanRd → s.readAnswers = .byte b :: rest → decode (.wire [b]) = .ok i →
    step s = exec i { s with chanRd := rest })

/-! ### Codec functions -/

/-- R111: CHECKSUM completes on every 128 bytes; `acc` is their 8-bit sum, and the value is the implementation's checksum: where that
is the normative one (the premise R111 asks a claim to name), `acc mod 255`, so that their order does not matter, an all-zero block
gives 0, and `acc = 255` gives 0 as `acc = 0` does. It changes nothing but `acc` and the model's own `codecOut` (log 7). -/
def Obligations.ChecksumIsWrappedSumModulo255 : Prop :=
  ∀ (d : List Byte) (s : State), d.length = 128 →
    exec (.checksum d) s = .next { s with
      acc := BitVec.ofNat 8 ((d.map BitVec.toNat).sum)
      codecOut := .byte (checksumOf s.config d) } ∧
    (NormativeChecksum s.config →
      checksumOf s.config d = BitVec.ofNat 8 (((d.map BitVec.toNat).sum % 256) % 255))

/-- R112, of the normative checksum: (a) 255 is never produced; (b) two blocks have the same checksum exactly when their 8-bit sums
are equal, or one is 0 and the other 255; (c) changing one byte goes undetected exactly when it moves the sum between 0 and 255; (d)
a reordering is never detected. -/
def Obligations.ChecksumBlindSpots : Prop :=
  (∀ d : List Byte, cksum d ≠ 255) ∧
  (∀ d e : List Byte, cksum d = cksum e ↔
    sum8 d = sum8 e ∨ (sum8 d = 0 ∧ sum8 e = 255) ∨ (sum8 d = 255 ∧ sum8 e = 0)) ∧
  (∀ (d : List Byte) (i : Nat) (v : Byte) (h : i < d.length), d[i] ≠ v →
    (cksum (d.set i v) = cksum d ↔
      (sum8 d = 0 ∧ sum8 (d.set i v) = 255) ∨ (sum8 d = 255 ∧ sum8 (d.set i v) = 0))) ∧
  (∀ d e : List Byte, d.Perm e → cksum d = cksum e)

/-- R113: COMPLEMENT completes on every byte with the value `255 - n`, the bitwise complement of `n`; `n + cmp(n) = 255`.
That the value stands in `codecOut` is the model's choice (log 7). -/
def Obligations.ComplementIs255MinusN : Prop :=
  ∀ (n : Byte) (s : State),
    exec (.complement n) s = .next { s with codecOut := .byte (BitVec.ofNat 8 (255 - n.toNat)) } ∧
    BitVec.ofNat 8 (255 - n.toNat) = ~~~n ∧
    n.toNat + (complementOf n).toNat = 255

/-- R115: FRAME completes with the 132 bytes `[0x01, n, 255 - n] ++ d ++ [cksum(d)]`, whatever the implementation's checksum. That
they stand in `codecOut` is the model's choice (log 7), and so is what FRAME leaves in `acc` (log 10). -/
def Obligations.FrameLayout : Prop :=
  ∀ (n : Byte) (d : List Byte) (s : State), d.length = 128 →
    exec (.frame n d) s = .next { s with
      acc := sum8 d
      codecOut := .bytes ([0x01, n, BitVec.ofNat 8 (255 - n.toNat)] ++ d ++ [checksumOf s.config d]) } ∧
    ([0x01, n, BitVec.ofNat 8 (255 - n.toNat)] ++ d ++ [checksumOf s.config d]).length = 132

/-- R116: DEFRAME completes on every 132 bytes; it gives `f[3..130]` exactly when header, sequence byte, complement and
checksum are right, whatever the implementation's checksum. It inverts FRAME, and a frame of another number is not well formed. That
the value stands in `codecOut` is the model's choice (log 7), and so is what DEFRAME leaves in `acc` (log 10). -/
def Obligations.DeframeAcceptsExactlyWellFormedFrames : Prop :=
  (∀ (n : Byte) (f : List Byte) (s : State), f.length = 132 →
    exec (.deframe n f) s = .next { s with
      acc := sum8 ((f.drop 3).take 128)
      codecOut := .deframed (deframeOf s.config n f) } ∧
    (deframeOf s.config n f = some ((f.drop 3).take 128) ↔
      f[0]? = some 0x01 ∧ f[1]? = some n ∧ f[2]? = some (BitVec.ofNat 8 (255 - n.toNat)) ∧
        f[131]? = some (checksumOf s.config ((f.drop 3).take 128))) ∧
    (deframeOf s.config n f = some ((f.drop 3).take 128) ∨ deframeOf s.config n f = none)) ∧
  (∀ (c : Config) (n : Byte) (d : List Byte), d.length = 128 → deframeOf c n (frameOf c n d) = some d) ∧
  (∀ (c : Config) (m n : Byte) (d : List Byte), d.length = 128 → m ≠ n → deframeOf c m (frameOf c n d) = none)

/-! ### Symbols and frames at their read sites -/

/-- R85: the header byte, all 256 values; exactly one byte is consumed and nothing is written. -/
def Obligations.HeaderByteTable : Prop :=
  ∀ (s : State) (b : Byte) (rest : List ReadAnswer),
    s.resetPin = false → s.phase = .rxHeader → s.readAnswers = .byte b :: rest →
    step s = .next
      (if b = 0x01 then { s with chanRd := rest, phase := .rxSeq }
       else if b = 0x04 then { s with chanRd := rest, phase := .rxEotNak }
       else if b = 0x18 then failedWith (.peerAbort .rxHeader) { s with chanRd := rest }
       else failedWith (.protocolViolation .rxHeader) { s with chanRd := rest })

/-- R85: the five symbols at the receiver's header site. Each completes for every state at that site. -/
def Obligations.SymbolsAtTheHeaderSite : Prop :=
  ∀ s : State, s.phase = .rxHeader →
    exec .soh s = .next { s with phase := .rxSeq } ∧
    exec .eot s = .next { s with phase := .rxEotNak } ∧
    exec .can s = .next (failedWith (.peerAbort .rxHeader) s) ∧
    exec .ack s = .next (failedWith (.protocolViolation .rxHeader) s) ∧
    exec .nak s = .next (failedWith (.protocolViolation .rxHeader) s)

/-- R89: the five symbols at the sender's reply site, for TX_PACKET and for TRANSMIT. ACK advances `packet_number` (255 to 0 by
decision D4) and ends the packet, after which TRANSMIT counts the genuine bytes and sets `n` to 0 (R200, R202); NAK resends the frame,
up to ten attempts; CAN is a cancel; SOH and EOT are violations. That RESULT is not written where a packet command inside TRANSMIT
ends (log 23), and that `attempt` keeps its last count when the command has ended (log 32), is the model's. -/
def Obligations.SymbolsAtTheReplySite : Prop :=
  ∀ s : State, s.phase = .txReply →
    (s.cmd = .txPacket →
      exec .ack s = .next (returned 128 .idle { s with packetNumber := s.packetNumber + 1 })) ∧
    (s.cmd = .transmit →
      exec .ack s = .next { s with
        packetNumber := s.packetNumber + 1, total := s.total + s.n, n := 0, phase := .trSrc }) ∧
    (s.attempt ≠ 10 → exec .nak s = .next { s with attempt := s.attempt + 1, phase := .txSoh }) ∧
    (s.attempt = 10 → exec .nak s = .next (failedWith (.retryExhausted .inner) s)) ∧
    exec .can s = .next (failedWith (.peerAbort .txReply) s) ∧
    (∀ i ∈ [Instr.soh, Instr.eot], exec i s = .next
      (if s.config.emitCanTxReply then { s with phase := .txReplyCan }
       else failedWith (.protocolViolation .txReply) s))

/-- R86: the expected-byte sites of the receiver, tested in the rule's order; the expected byte wins even when it is 0x18. A
violation leads to the write of CAN (always, or by the parameter), and that write to `ProtocolViolation`. -/
def Obligations.ReceiverExpectedByteTable : Prop :=
  CanThenViolation .rxSeqCan .rxSeq ∧ CanThenViolation .rxCmpCan .rxCmp ∧ CanThenViolation .rxEot2Can .rxEot2 ∧
  ∀ (s : State) (b : Byte) (rest : List ReadAnswer),
    s.resetPin = false → s.readAnswers = .byte b :: rest →
    (s.phase = .rxSeq → step s = .next
      (if b = s.packetNumber then { s with chanRd := rest, phase := .rxCmp }
       else if b = 0x18 then failedWith (.peerAbort .rxSeq) { s with chanRd := rest }
       else { s with chanRd := rest, phase := .rxSeqCan })) ∧
    (s.phase = .rxCmp → step s = .next
      (if b.toNat = 255 - s.packetNumber.toNat then { s with chanRd := rest, phase := .rxData 0 }
       else if b = 0x18 then failedWith (.peerAbort .rxCmp) { s with chanRd := rest }
       else { s with chanRd := rest, phase := .rxCmpCan })) ∧
    (s.phase = .rxEot2 → step s = .next
      (if b = 0x04 then { s with chanRd := rest, phase := .rxEotAck }
       else if b = 0x18 then failedWith (.peerAbort .rxEot2) { s with chanRd := rest }
       else if s.config.emitCanRxEot2 then { s with chanRd := rest, phase := .rxEot2Can }
       else failedWith (.protocolViolation .rxEot2) { s with chanRd := rest }))

/-- R87, R138, R139, R140: the raw sites. Every answer to a data read is stored, a failure as 0x18, and the engine goes on
to the next byte; the checksum byte is compared with the checksum of `x`, and 255 never matches where the implementation's checksum is
the normative one. That the sum is left in `acc` at that step is the model's choice (log 10). -/
def Obligations.RawSitesTakeEveryByte : Prop :=
  ∀ (s : State) (rest : List ReadAnswer), s.resetPin = false →
    (∀ (i : Fin dataLen) (a : ReadAnswer), s.phase = .rxData i → s.readAnswers = a :: rest →
      step s = .next { s with
        chanRd := rest
        x := s.x.set i.val a.dataValue
        xWritten := s.xWritten.set i.val true
        phase := if h : i.val + 1 < 128 then .rxData ⟨i.val + 1, h⟩ else .rxCksum }) ∧
    (∀ b : Byte, s.phase = .rxCksum → s.readAnswers = .byte b :: rest →
      step s = .next { s with
        chanRd := rest
        acc := sum8 s.x.toList
        phase := if b = checksumOf s.config s.x.toList then .rxAck else .rxNak } ∧
      (NormativeChecksum s.config → checksumOf s.config s.x.toList ≠ 255))

/-- R88: the expected-byte sites of the sender. The handshake NAK leads to the EOT exchange for `len = 0` and to the first
transmission otherwise (R162, R163, R165); the last ACK ends the transfer, with the driver's count in TRANSMIT (R164, R200). A
violation leads to the write of CAN if the site's parameter says so, and that write to `ProtocolViolation`. What `attempt` holds outside
a frame's transmissions and once a command has ended is the model's choice (log 32). -/
def Obligations.SenderExpectedByteTable : Prop :=
  CanThenViolation .txHandshakeCan .txHandshake ∧ CanThenViolation .txEot1Can .txEot1 ∧ CanThenViolation .txEot2Can .txEot2 ∧
  ∀ (s : State) (b : Byte) (rest : List ReadAnswer),
    s.resetPin = false → s.readAnswers = .byte b :: rest →
    (s.phase = .txHandshake → step s = .next
      (if b = 0x15 then
        (if s.len = 0 then { s with chanRd := rest, handshakeDone := true, phase := .txEot1Send }
         else { s with chanRd := rest, handshakeDone := true, attempt := 1, phase := .txSoh })
       else if b = 0x18 then failedWith (.peerAbort .txHandshake) { s with chanRd := rest }
       else if s.config.emitCanTxHandshake then { s with chanRd := rest, phase := .txHandshakeCan }
       else failedWith (.protocolViolation .txHandshake) { s with chanRd := rest })) ∧
    (s.phase = .txEot1 → step s = .next
      (if b = 0x15 then { s with chanRd := rest, phase := .txEot2Send }
       else if b = 0x18 then failedWith (.peerAbort .txEot1) { s with chanRd := rest }
       else if s.config.emitCanTxEot1 then { s with chanRd := rest, phase := .txEot1Can }
       else failedWith (.protocolViolation .txEot1) { s with chanRd := rest })) ∧
    (s.phase = .txEot2 → s.cmd = .txPacket ∨ s.cmd = .transmit → step s = .next
      (if b = 0x06 then returned (if s.cmd = .transmit then s.total else 0) .terminated { s with chanRd := rest }
       else if b = 0x18 then failedWith (.peerAbort .txEot2) { s with chanRd := rest }
       else if s.config.emitCanTxEot2 then { s with chanRd := rest, phase := .txEot2Can }
       else failedWith (.protocolViolation .txEot2) { s with chanRd := rest }))

/-- R89: the reply byte, all 256 values, in a TX_PACKET command and in TRANSMIT. ACK advances `packet_number` (255 to 0 by decision
D4); TRANSMIT then counts the genuine bytes and sets `n` to 0 (R200, R202). A violation leads to the write of CAN if the parameter
says so, and that write to `ProtocolViolation`. That RESULT is not written where a packet command inside TRANSMIT ends (log 23), and
that `attempt` keeps its last count when the command has ended (log 32), is the model's. -/
def Obligations.ReplyByteTable : Prop :=
  CanThenViolation .txReplyCan .txReply ∧
  ∀ (s : State) (b : Byte) (rest : List ReadAnswer),
    s.resetPin = false → s.phase = .txReply → s.readAnswers = .byte b :: rest → s.cmd = .txPacket ∨ s.cmd = .transmit →
    step s = .next
      (if b = 0x06 then
        (if s.cmd = .transmit then
          { s with chanRd := rest, packetNumber := s.packetNumber + 1, total := s.total + s.n, n := 0, phase := .trSrc }
         else returned 128 .idle { s with chanRd := rest, packetNumber := s.packetNumber + 1 })
       else if b = 0x15 then
        (if s.attempt = 10 then failedWith (.retryExhausted .inner) { s with chanRd := rest }
         else { s with chanRd := rest, attempt := s.attempt + 1, phase := .txSoh })
       else if b = 0x18 then failedWith (.peerAbort .txReply) { s with chanRd := rest }
       else if s.config.emitCanTxReply then { s with chanRd := rest, phase := .txReplyCan }
       else failedWith (.protocolViolation .txReply) { s with chanRd := rest })

/-- A symbol at a phase that reads no channel byte has no effect yet: it waits at the head of `CHAN_RD` (R173 g, R230; the
model's choice of where it waits is log 6). -/
def Obligations.SymbolWaitsWhileNotRead : Prop :=
  ∀ s : State, s.phase.port ≠ some .chanRd →
    exec .soh s = .next { s with chanRd := .byte 0x01 :: s.chanRd } ∧
    exec .eot s = .next { s with chanRd := .byte 0x04 :: s.chanRd } ∧
    exec .ack s = .next { s with chanRd := .byte 0x06 :: s.chanRd } ∧
    exec .nak s = .next { s with chanRd := .byte 0x15 :: s.chanRd } ∧
    exec .can s = .next { s with chanRd := .byte 0x18 :: s.chanRd }

/-- R91, R133, R137 to R140: a data frame at the header site completes for every value of its fields. A good frame leaves its
data in `x` and the engine at the ACK write; a bad checksum leaves it at the NAK write; a wrong sequence or complement byte ends
or violates there, and the bytes behind it stay queued in `CHAN_RD` (log 6). That the sum is left in `acc` is the model's
choice (log 10). -/
def Obligations.DataFrameAtTheHeaderSite : Prop :=
  ∀ (s : State) (seq cmp : Byte) (d : List Byte) (ck : Byte) (h : d.length = 128), s.phase = .rxHeader →
    exec (.data seq cmp d ck) s = .next
      (if seq = s.packetNumber then
        (if cmp.toNat = 255 - s.packetNumber.toNat then
          { s with
            x := Vector.mk d.toArray (by simpa using h)
            xWritten := Vector.replicate 128 true
            acc := sum8 d
            phase := if ck = checksumOf s.config d then .rxAck else .rxNak }
         else if cmp = 0x18 then
          failedWith (.peerAbort .rxCmp) { s with chanRd := (d ++ [ck]).map .byte ++ s.chanRd }
         else { s with phase := .rxCmpCan, chanRd := (d ++ [ck]).map .byte ++ s.chanRd })
       else if seq = 0x18 then
        failedWith (.peerAbort .rxSeq) { s with chanRd := (cmp :: (d ++ [ck])).map .byte ++ s.chanRd }
       else { s with phase := .rxSeqCan, chanRd := (cmp :: (d ++ [ck])).map .byte ++ s.chanRd })

/-! ### Channel writes of the receiver -/

/-- R141: the ACK is written, then `packet_number` advances (255 to 0: decision D4), then RX_PACKET ends with `Ok(128)`, or RECEIVE
goes on to the sink (R195); that RESULT is not written for the packet command inside RECEIVE is the model's reading (log 23). If the
write fails the command ends with `IoFailure` at `RX_ACK` (R225) and nothing advances; its byte may or may not have gone out (R54). -/
def Obligations.AcceptAcknowledgesThenAdvances : Prop :=
  ∀ s : State, s.resetPin = false → s.phase = .rxAck → s.cmd = .rxPacket ∨ s.cmd = .receive →
    (∀ rest, s.writeAnswers = .accepted :: rest → step s = .next
      (if s.cmd = .receive then
        { s with
          chanWrAns := rest, chanWr := s.chanWr ++ [0x06]
          packetNumber := BitVec.ofNat 8 ((s.packetNumber.toNat + 1) % 256), phase := .rcSink }
       else returned 128 .idle { s with
          chanWrAns := rest, chanWr := s.chanWr ++ [0x06]
          packetNumber := BitVec.ofNat 8 ((s.packetNumber.toNat + 1) % 256) })) ∧
    (∀ k wentOut rest, s.writeAnswers = .fail k wentOut :: rest →
      step s = .next (failedWith (.ioFailure .chanWr k .rxAck) { s with
        chanWrAns := rest, chanWr := if wentOut then s.chanWr ++ [0x06] else s.chanWr }))

/-- R142: a rejected frame is answered with NAK and the header is read again in the same command; `packet_number`,
`handshake_done` and `x` are unchanged, and the handshake is not repeated. -/
def Obligations.RejectNaksAndReadsAgain : Prop :=
  ∀ (s : State) (rest : List WriteAnswer),
    s.resetPin = false → s.phase = .rxNak → s.writeAnswers = .accepted :: rest →
    step s = .next { s with chanWrAns := rest, chanWr := s.chanWr ++ [0x15], phase := .rxHeader }

/-- R132: RX_PACKET writes the handshake NAK if and only if the handshake is not yet done; the flag is set by the accepted
write, and stays false if the write fails. -/
def Obligations.HandshakeNakWrittenOnce : Prop :=
  (∀ (s : State) (cap : Nat), s.phase = .idle → s.role ≠ some .sender → 128 ≤ cap →
    exec (.rxPacket cap) s = .next { s with
      cmd := .rxPacket, len := cap, role := some .receiver
      phase := if s.handshakeDone then .rxHeader else .rxHsNak }) ∧
  (∀ s : State, s.resetPin = false → s.phase = .rxHsNak →
    (∀ rest, s.writeAnswers = .accepted :: rest →
      step s = .next { s with
        chanWrAns := rest, chanWr := s.chanWr ++ [0x15], handshakeDone := true, phase := .rxHeader }) ∧
    (∀ k wentOut rest, s.cmd = .rxPacket ∨ s.cmd = .receive → s.writeAnswers = .fail k wentOut :: rest →
      step s = .next (failedWith (.ioFailure .chanWr k .rxHsNak) { s with
        chanWrAns := rest, chanWr := if wentOut then s.chanWr ++ [0x15] else s.chanWr })))

/-- R134 and R136: the termination handshake of the receiver. The first EOT is answered with NAK; after the second the ACK is
written, the engine is Terminated and returns `Ok(0)` (RECEIVE: its count); a failed ACK leaves it Idle, not terminated. -/
def Obligations.ReceiverTermination : Prop :=
  ∀ s : State, s.resetPin = false →
    (∀ rest, s.phase = .rxEotNak → s.writeAnswers = .accepted :: rest →
      step s = .next { s with chanWrAns := rest, chanWr := s.chanWr ++ [0x15], phase := .rxEot2 }) ∧
    (∀ rest, s.phase = .rxEotAck → s.cmd = .rxPacket ∨ s.cmd = .receive → s.writeAnswers = .accepted :: rest →
      step s = .next (returned (if s.cmd = .receive then s.total else 0) .terminated
        { s with chanWrAns := rest, chanWr := s.chanWr ++ [0x06] })) ∧
    (∀ k wentOut rest, s.phase = .rxEotAck → s.cmd = .rxPacket ∨ s.cmd = .receive →
      s.writeAnswers = .fail k wentOut :: rest →
      step s = .next (failedWith (.ioFailure .chanWr k .rxEotAck) { s with
        chanWrAns := rest, chanWr := if wentOut then s.chanWr ++ [0x06] else s.chanWr }))

/-- R227, R240, R243: at a `*_CAN` phase one byte 0x18 is written and the command ends with `ProtocolViolation` of the site that
was violated; if that write fails it ends with `IoFailure` at the `*_CAN` site instead (TRANSMIT's re-issue apart, which
`InterruptedChunkIsReissued` states). That `attempt` keeps its last count at a sender's is the model's choice (log 32). -/
def Obligations.CanWriteThenProtocolViolation : Prop :=
  ∀ (s : State) (site canSite : Site), s.resetPin = false → s.phase.canOf = some site → s.phase.site = some canSite →
    (∀ rest, s.writeAnswers = .accepted :: rest →
      step s = .next (failedWith (.protocolViolation site)
        { s with chanWrAns := rest, chanWr := s.chanWr ++ [0x18] })) ∧
    (∀ k wentOut rest, s.writeAnswers = .fail k wentOut :: rest →
      s.cmd ≠ .transmit ∨ s.len ≠ 128 ∨ k ≠ .interrupted →
      step s = .next (failedWith (.ioFailure .chanWr k canSite) { s with
        chanWrAns := rest, chanWr := if wentOut then s.chanWr ++ [0x18] else s.chanWr }))

/-- R227: a step enters a `*_CAN` phase only from the read site of that violation, on a byte that is neither expected nor CAN, and
at the five open sites only if the site's parameter is true. So reading CAN never leads to writing one. -/
def Obligations.CanOnlyAfterAMismatch : Prop :=
  ∀ s t : State, step s = .next t → ∀ site, t.phase.canOf = some site →
    s.phase.site = some site ∧
    ∃ b rest, s.readAnswers = .byte b :: rest ∧ b ≠ 0x18 ∧
      (site = .rxSeq → b ≠ s.packetNumber) ∧
      (site = .rxCmp → b.toNat ≠ 255 - s.packetNumber.toNat) ∧
      (site = .rxEot2 → b ≠ 0x04 ∧ s.config.emitCanRxEot2 = true) ∧
      (site = .txHandshake → b ≠ 0x15 ∧ s.config.emitCanTxHandshake = true) ∧
      (site = .txEot1 → b ≠ 0x15 ∧ s.config.emitCanTxEot1 = true) ∧
      (site = .txEot2 → b ≠ 0x06 ∧ s.config.emitCanTxEot2 = true) ∧
      (site = .txReply → b ≠ 0x06 ∧ b ≠ 0x15 ∧ s.config.emitCanTxReply = true)

/-- R225: a failed transaction of any port ends the command with `IoFailure` of that port, kind and site, at every site but
`RX_DATA` (R138) and but for TRANSMIT's re-issue of an interrupted chunk. The byte of a failed channel write may or may not have
gone out (R54); a failed sink write appends nothing (log 18). That `attempt` keeps its last count when the command has ended is the
model's choice (log 32). -/
def Obligations.PortFailureEndsTheCommand : Prop :=
  ∀ (s : State) (site : Site) (k : IoKind), s.resetPin = false → s.phase.site = some site →
    (∀ rest, s.phase.port = some .chanRd → site ≠ .rxData → s.readAnswers = .fail k :: rest →
      s.cmd ≠ .transmit ∨ s.len ≠ 128 ∨ k ≠ .interrupted →
      step s = .next (failedWith (.ioFailure .chanRd k site) { s with chanRd := rest })) ∧
    (∀ wentOut rest, s.phase.port = some .chanWr → s.writeAnswers = .fail k wentOut :: rest →
      s.cmd ≠ .transmit ∨ s.len ≠ 128 ∨ k ≠ .interrupted →
      step s = .next (failedWith (.ioFailure .chanWr k site) { s with
        chanWrAns := rest
        chanWr := if wentOut then s.chanWr ++ s.offeredByte.toList else s.chanWr })) ∧
    (∀ rest, s.phase.port = some .src → s.sourceAnswers = .fail k :: rest →
      step s = .next (failedWith (.ioFailure .src k site) { s with src := rest })) ∧
    (∀ rest, s.phase.port = some .sink → s.sinkAnswers = .fail k :: rest →
      step s = .next (failedWith (.ioFailure .sink k site) { s with sinkAns := rest }))

/-! ### Acceptance of commands -/

/-- R190, R261: NEW completes whenever the engine is not busy. Every register takes its reset value (those of `x`, RESULT, `acc`,
CMD and ARG are the model's, log 8 to 11), the model's own `codecOut` is cleared (log 7), and no stream is touched. -/
def Obligations.NewMakesAFreshEngine : Prop :=
  ∀ s : State, s.busy = false →
    exec .new s = .next { State.reset with
      config := s.config, chanRd := s.chanRd, chanWrAns := s.chanWrAns, chanWr := s.chanWr, src := s.src
      sinkAns := s.sinkAns, sink := s.sink, again := s.again, host := s.host, resetPin := s.resetPin }

/-- R131, R147: RX_PACKET. It is refused while busy, while Terminated and on a sender's engine; otherwise, with a capacity below
128, it ends at once with `ContractViolation(RxBufferTooSmall)`, no port operation and no register but RESULT and the command's own
(CMD, ARG, the role record: log 16) changed. -/
def Obligations.RxPacketAdmissionAndBufferCheck : Prop :=
  ∀ (s : State) (cap : Nat),
    (s.busy = true → exec (.rxPacket cap) s = .refused .busy) ∧
    (s.phase = .terminated → exec (.rxPacket cap) s = .refused .terminated) ∧
    (s.phase = .idle → s.role = some .sender → exec (.rxPacket cap) s = .refused .wrongRole) ∧
    (s.phase = .idle → s.role ≠ some .sender → cap < 128 →
      exec (.rxPacket cap) s = .next (failedWith (.contractViolation .rxBufferTooSmall)
        { s with cmd := .rxPacket, len := cap, role := some .receiver }))

/-- R160, R161, R174: TX_PACKET. It is refused while busy, while Terminated, on a receiver's engine, and for `len = 128` while an
entry of `x` was never written; otherwise a length that is neither 0 nor 128 ends at once with `ContractViolation(TxBadLength)`, and
no register but RESULT and the command's own (CMD, ARG, the role record: log 16) changes. What `attempt` still holds of an earlier
command is the model's choice (log 32). -/
def Obligations.TxPacketAdmissionAndLengthCheck : Prop :=
  ∀ (s : State) (len : Nat),
    (s.busy = true → exec (.txPacket len) s = .refused .busy) ∧
    (s.phase = .terminated → exec (.txPacket len) s = .refused .terminated) ∧
    (s.phase = .idle → s.role = some .receiver → exec (.txPacket len) s = .refused .wrongRole) ∧
    (s.phase = .idle → s.role ≠ some .receiver → len = 128 → (∃ i, s.xWritten.get i = false) →
      exec (.txPacket len) s = .refused .bufferUnwritten) ∧
    (s.phase = .idle → s.role ≠ some .receiver → len ≠ 0 → len ≠ 128 →
      exec (.txPacket len) s = .next (failedWith (.contractViolation .txBadLength)
        { s with cmd := .txPacket, len := len, role := some .sender }))

/-- R160, R162, R163, R165: an admitted TX_PACKET of length 0, or of length 128 with all of `x` written, goes to the handshake read
if the handshake is not yet done, else to the first EOT, or to the first transmission with `attempt` at 1. What `attempt` holds before
that is the model's choice (log 32). -/
def Obligations.TxPacketStarts : Prop :=
  ∀ (s : State) (len : Nat), s.phase = .idle → s.role ≠ some .receiver →
    len = 0 ∨ (len = 128 ∧ ∀ i, s.xWritten.get i = true) →
    exec (.txPacket len) s = .next
      (if s.handshakeDone = false then
        { s with cmd := .txPacket, len := len, role := some .sender, phase := .txHandshake }
       else if len = 0 then
        { s with cmd := .txPacket, len := len, role := some .sender, phase := .txEot1Send }
       else { s with cmd := .txPacket, len := len, role := some .sender, attempt := 1, phase := .txSoh })

/-- R195, R200: RECEIVE and TRANSMIT complete whenever the engine is not busy, Terminated included and whatever role it served: they
begin with NEW (whose values of `x`, RESULT, `acc`, CMD and ARG are the model's, log 8 to 11, as is that `codecOut` is cleared, log
7), then RECEIVE writes the handshake NAK and TRANSMIT reads its source. -/
def Obligations.DriversBeginWithNew : Prop :=
  ∀ s : State, s.busy = false →
    exec .receive s = .next { State.reset with
      config := s.config, chanRd := s.chanRd, chanWrAns := s.chanWrAns, chanWr := s.chanWr, src := s.src
      sinkAns := s.sinkAns, sink := s.sink, again := s.again, host := s.host, resetPin := s.resetPin
      cmd := .receive, role := some .receiver, len := 128, phase := .rxHsNak } ∧
    exec .transmit s = .next { State.reset with
      config := s.config, chanRd := s.chanRd, chanWrAns := s.chanWrAns, chanWr := s.chanWr, src := s.src
      sinkAns := s.sinkAns, sink := s.sink, again := s.again, host := s.host, resetPin := s.resetPin
      cmd := .transmit, role := some .sender, phase := .trSrc }

/-! ### Whole packets and whole transfers -/

/-- R166: the 132 writes of one transmission put exactly `frame(packet_number, x)` on the channel, in order, with nothing read
between them, and the engine then reads the reply. That the
sum is left in `acc` is the model's choice (log 10). -/
def Obligations.TransmissionWritesTheFrame : Prop :=
  ∀ (s : State) (rest : List WriteAnswer),
    s.resetPin = false → s.phase = .txSoh → s.chanWrAns = accepts 132 ++ rest →
    runSteps 132 s = .next { s with
      phase := .txReply
      chanWrAns := rest
      chanWr := s.chanWr ++ frameOf s.config s.packetNumber s.x.toList
      acc := sum8 s.x.toList }

/-- R137 to R140: the 132 reads of a frame whose sequence and complement bytes are the expected ones. The 128 data reads are all
made whatever they answer, a failure stored as 0x18, and the checksum byte decides between ACK and NAK. That the
sum is left in `acc` is the model's choice (log 10). -/
def Obligations.FrameReadByteByByte : Prop :=
  ∀ (s : State) (answers : List ReadAnswer) (h : answers.length = 128) (ck : Byte) (rest : List ReadAnswer),
    s.resetPin = false → s.phase = .rxHeader →
    s.chanRd = [.byte 0x01, .byte s.packetNumber, .byte (complementOf s.packetNumber)] ++ answers ++ .byte ck :: rest →
    runSteps 132 s = .next { s with
      chanRd := rest
      x := Vector.mk (answers.map ReadAnswer.dataValue).toArray (by simpa using h)
      xWritten := Vector.replicate 128 true
      acc := sum8 (answers.map ReadAnswer.dataValue)
      phase := if ck = checksumOf s.config (answers.map ReadAnswer.dataValue) then .rxAck else .rxNak }

/-- R67, R116: reading a frame byte by byte is the meaning of the DATA instruction, for every value of its fields: 132 steps where the
sequence and complement bytes are the expected ones, and as many steps as there are bytes up to the first mismatch where not. -/
def Obligations.DataInstructionIsItsByteReads : Prop :=
  ∀ (s : State) (seq cmp : Byte) (d : List Byte) (ck : Byte), d.length = 128 → s.resetPin = false → s.phase = .rxHeader →
    runSteps (if seq ≠ s.packetNumber then 2 else if cmp ≠ complementOf s.packetNumber then 3 else 132)
      { s with chanRd := (frameBytes seq cmp d ck).map .byte ++ s.chanRd } =
    exec (.data seq cmp d ck) s

/-- R130, R142 to R144, the exit `Ok(128)`: RX_PACKET on a channel that delivers any number of rejected frames and then a good one
ends with `Ok(128)`, `packet_number` advanced by one and the good frame's data in `x`; it writes the handshake NAK if it was due, one
NAK for each rejected frame and one ACK, and reads nothing more. That the
sum is left in `acc` is the model's choice (log 10). -/
def Obligations.RxPacketRetriesUntilAccept : Prop :=
  ∀ (s : State) (cap : Nat) (bad : List (List Byte × Byte)) (d : List Byte) (h : d.length = 128) (rest : List ReadAnswer)
    (restW : List WriteAnswer),
    s.resetPin = false → s.phase = .idle → s.role ≠ some .sender → 128 ≤ cap →
    (∀ p ∈ bad, p.1.length = 128 ∧ p.2 ≠ checksumOf s.config p.1) →
    s.chanRd = (bad.flatMap fun p =>
        (frameBytes s.packetNumber (complementOf s.packetNumber) p.1 p.2).map ReadAnswer.byte) ++
      (frameOf s.config s.packetNumber d).map ReadAnswer.byte ++ rest →
    s.chanWrAns = accepts ((if s.handshakeDone then 0 else 1) + bad.length + 1) ++ restW →
    ∃ t, exec (.rxPacket cap) s = .next t ∧
      runSteps ((if s.handshakeDone then 0 else 1) + 133 * bad.length + 133) t = .next { s with
        cmd := .rxPacket, len := cap, role := some .receiver
        handshakeDone := true
        packetNumber := s.packetNumber + 1
        x := Vector.mk d.toArray (by simpa using h)
        xWritten := Vector.replicate 128 true
        acc := sum8 d
        chanRd := rest
        chanWrAns := restW
        chanWr := s.chanWr ++ List.replicate ((if s.handshakeDone then 0 else 1) + bad.length) 0x15 ++ [0x06]
        result := .ok 128, resultValid := true, phase := .idle }

/-- R143, R273: there is no bound. Against an environment that repeats a frame with the expected header fields and a wrong checksum
for ever, and takes every write, one RX_PACKET command runs for ever: after any number of steps it is still running, `packet_number`
and RESULT as they were. -/
def Obligations.RxPacketCanRunForEver : Prop :=
  ∀ (s : State) (cap : Nat) (d : List Byte) (ck : Byte),
    s.resetPin = false → s.phase = .idle → s.role ≠ some .sender → 128 ≤ cap →
    d.length = 128 → ck ≠ checksumOf s.config d →
    s.chanRd = [] → s.again.chanRd = (frameBytes s.packetNumber (complementOf s.packetNumber) d ck).map .byte →
    s.chanWrAns = [] → s.again.chanWrAns = [.accepted] →
    ∃ t, exec (.rxPacket cap) s = .next t ∧
      ∀ k, ∃ u, runSteps k t = .next u ∧ u.busy = true ∧ u.cmd = .rxPacket ∧ u.packetNumber = s.packetNumber ∧
        u.result = s.result ∧ u.resultValid = s.resultValid

/-- R165 to R169, R171: TX_PACKET of one packet whose first `k < 10` transmissions are answered with NAK and the next with ACK ends
with `Ok(128)`, having written the identical frame `k + 1` times; `packet_number` advances once. That the sum is left in `acc`
(log 10) and the count in `attempt` (log 32) is the model's choice. -/
def Obligations.TxPacketResendsUntilAck : Prop :=
  ∀ (s : State) (k : Nat) (rest : List ReadAnswer) (restW : List WriteAnswer),
    s.resetPin = false → s.phase = .idle → s.role ≠ some .receiver → (∀ i, s.xWritten.get i = true) → k < 10 →
    s.chanRd = List.replicate ((if s.handshakeDone then 0 else 1) + k) (.byte 0x15) ++ .byte 0x06 :: rest →
    s.chanWrAns = accepts (132 * (k + 1)) ++ restW →
    ∃ t, exec (.txPacket 128) s = .next t ∧
      runSteps ((if s.handshakeDone then 0 else 1) + 133 * (k + 1)) t = .next { s with
        cmd := .txPacket, len := 128, role := some .sender
        handshakeDone := true
        attempt := k + 1
        acc := sum8 s.x.toList
        packetNumber := s.packetNumber + 1
        chanRd := rest
        chanWrAns := restW
        chanWr := s.chanWr ++ (List.replicate (k + 1) (frameOf s.config s.packetNumber s.x.toList)).flatten
        result := .ok 128, resultValid := true, phase := .idle }

/-- R169: a frame answered with NAK ten times makes TX_PACKET fail with `RetryExhausted(Inner)` after exactly ten transmissions
(1320 bytes); `packet_number` is unchanged and no CAN is written. That the sum is left in `acc` (log 10) and the count in `attempt`
(log 32) is the model's choice. -/
def Obligations.TenNaksExhaustTheRetries : Prop :=
  ∀ (s : State) (rest : List ReadAnswer) (restW : List WriteAnswer),
    s.resetPin = false → s.phase = .idle → s.role ≠ some .receiver → (∀ i, s.xWritten.get i = true) →
    s.chanRd = List.replicate ((if s.handshakeDone then 0 else 1) + 10) (.byte 0x15) ++ rest →
    s.chanWrAns = accepts 1320 ++ restW →
    ∃ t, exec (.txPacket 128) s = .next t ∧
      runSteps ((if s.handshakeDone then 0 else 1) + 1330) t = .next { s with
        cmd := .txPacket, len := 128, role := some .sender
        handshakeDone := true
        attempt := 10
        acc := sum8 s.x.toList
        chanRd := rest
        chanWrAns := restW
        chanWr := s.chanWr ++ (List.replicate 10 (frameOf s.config s.packetNumber s.x.toList)).flatten
        result := .err (.retryExhausted .inner), resultValid := true, phase := .idle }

/-- R163, R164: the empty-packet call ends the transfer: EOT, NAK, EOT, ACK, then Terminated with `Ok(0)`. What `attempt` still holds
of an earlier command is the model's choice (log 32). -/
def Obligations.EmptyPacketCallTerminates : Prop :=
  ∀ (s : State) (rest : List ReadAnswer) (restW : List WriteAnswer),
    s.resetPin = false → s.phase = .idle → s.role ≠ some .receiver →
    s.chanRd = List.replicate (if s.handshakeDone then 0 else 1) (.byte 0x15) ++ .byte 0x15 :: .byte 0x06 :: rest →
    s.chanWrAns = accepts 2 ++ restW →
    ∃ t, exec (.txPacket 0) s = .next t ∧
      runSteps ((if s.handshakeDone then 0 else 1) + 4) t = .next { s with
        cmd := .txPacket, len := 0, role := some .sender
        handshakeDone := true
        chanRd := rest
        chanWrAns := restW
        chanWr := s.chanWr ++ [0x04, 0x04]
        result := .ok 0, resultValid := true, phase := .terminated }

/-- R200, R201: TRANSMIT fills a chunk from a source that has `D` left and then ends (log 3): `x` holds the first `min(128, L)`
bytes and zeros behind them, `n` counts the genuine ones, and the packet call is the one R200 gives: the handshake where it is not yet
done, else the EOT exchange for an empty chunk and the frame for any other. What `attempt` holds before the first transmission is the
model's choice (log 32). -/
def Obligations.ChunkIsFilledAndPadded : Prop :=
  ∀ (s : State) (D : List Byte),
    s.resetPin = false → s.phase = .trSrc → s.n = 0 → s.src = D.map SrcAnswer.byte → s.again.src = [] →
    runSteps (if D.length < 128 then D.length + 1 else 128) s = .next { s with
      x := Vector.mk (padChunk (D.take 128)).toArray (by simp [padChunk])
      xWritten := Vector.replicate 128 true
      n := min 128 D.length
      pos := s.pos + min 128 D.length
      src := (D.drop 128).map SrcAnswer.byte
      outer := if D = [] then s.outer else 1
      len := if D = [] then 0 else 128
      attempt := if s.handshakeDone = false ∨ D = [] then s.attempt else 1
      phase := if s.handshakeDone = false then .txHandshake else if D = [] then .txEot1Send else .txSoh }

/-- R203: in TRANSMIT an `Interrupted` failure of either channel port during a chunk's TX_PACKET re-issues that command: `outer`
grows, the frame's attempts start again, and `x`, `n`, `total` and the source are kept; the tenth such failure ends TRANSMIT with
`RetryExhausted(Outer)`. (RX_DATA is no site of TRANSMIT.) That RESULT is not written where a packet command inside TRANSMIT
ends (log 23), and that `attempt` keeps its last count when it has ended (log 32), is the model's. -/
def Obligations.InterruptedChunkIsReissued : Prop :=
  ∀ s : State, s.resetPin = false → s.cmd = .transmit → s.len = 128 → s.phase.owner = some .sender →
    (∀ u : State, ((∃ rest, s.phase.port = some .chanRd ∧ s.readAnswers = .fail .interrupted :: rest ∧ u = { s with chanRd := rest }) ∨
        (∃ wentOut rest, s.phase.port = some .chanWr ∧ s.writeAnswers = .fail .interrupted wentOut :: rest ∧
          u = { s with
            chanWrAns := rest
            chanWr := if wentOut then s.chanWr ++ s.offeredByte.toList else s.chanWr })) →
      step s = .next
        (if s.outer = 10 then failedWith (.retryExhausted .outer) u
         else if s.handshakeDone then { u with outer := s.outer + 1, attempt := 1, phase := .txSoh }
         else { u with outer := s.outer + 1, phase := .txHandshake }))

/-- R56, R195, R196: at `RC_SINK` the 128 bytes of `x` are appended to the sink in one transaction, `total` grows by 128, and the
next RX_PACKET begins (the handshake being done). -/
def Obligations.SinkTakesThePacket : Prop :=
  ∀ (s : State) (rest : List SinkAnswer),
    s.resetPin = false → s.phase = .rcSink → s.handshakeDone = true → s.sinkAnswers = .accepted :: rest →
    step s = .next { s with
      sinkAns := rest, sink := s.sink ++ s.x.toList, total := s.total + 128, len := 128, phase := .rxHeader }

/-- R195, R196: RECEIVE from a peer that sends the packets `ds`, numbered from 1, and then the two EOTs: it ends with
`Ok(128 * p)`, Terminated, with exactly the packets' data appended to the sink in order. For more than 255 packets it rests on decision
D4, the wrap of `packet_number` modulo 256 (R114, R277). -/
def Obligations.ReceiveDeliversEveryPacket : Prop :=
  ∀ (s : State) (ds : List (List Byte)) (rest : List ReadAnswer) (restW : List WriteAnswer) (restS : List SinkAnswer),
    s.resetPin = false → s.busy = false → (∀ d ∈ ds, d.length = 128) →
    s.chanRd = (framesFrom s.config 1 ds).map ReadAnswer.byte ++ .byte 0x04 :: .byte 0x04 :: rest →
    s.chanWrAns = accepts (ds.length + 3) ++ restW →
    s.sinkAns = List.replicate ds.length SinkAnswer.accepted ++ restS →
    ∃ t u, exec .receive s = .next t ∧ runSteps (134 * ds.length + 5) t = .next u ∧
      u.result = .ok (128 * ds.length) ∧ u.resultValid = true ∧ u.phase = .terminated ∧
      u.packetNumber = packetAfter ds.length 1 ∧ u.handshakeDone = true ∧ u.role = some .receiver ∧
      u.sink = s.sink ++ ds.flatten ∧
      u.chanWr = s.chanWr ++ 0x15 :: List.replicate ds.length 0x06 ++ [0x15, 0x06] ∧
      u.chanRd = rest ∧ u.chanWrAns = restW ∧ u.sinkAns = restS ∧
      u.src = s.src ∧ u.host = s.host ∧ u.config = s.config

/-- R200 to R205: TRANSMIT of any source `D` to a peer that accepts every packet: it ends with `Ok(len(D))`, Terminated, having
written the frames of the zero-padded 128-byte chunks of `D`, numbered from 1, and the two EOTs. That the end of the list `src` is
the end of the source is the model's choice (log 3). For more than 255 packets it rests on decision D4, the wrap of `packet_number`
modulo 256 (R114, R277). -/
def Obligations.TransmitSendsEveryChunk : Prop :=
  ∀ (s : State) (D : List Byte) (rest : List ReadAnswer) (restW : List WriteAnswer),
    s.resetPin = false → s.busy = false → s.src = D.map SrcAnswer.byte → s.again.src = [] →
    s.chanRd = .byte 0x15 :: List.replicate (packetsOf D).length (.byte 0x06) ++ .byte 0x15 :: .byte 0x06 :: rest →
    s.chanWrAns = accepts (132 * (packetsOf D).length + 2) ++ restW →
    ∃ t u k, exec .transmit s = .next t ∧ runSteps k t = .next u ∧
      u.result = .ok D.length ∧ u.resultValid = true ∧ u.phase = .terminated ∧
      u.packetNumber = packetAfter (packetsOf D).length 1 ∧ u.handshakeDone = true ∧ u.role = some .sender ∧
      u.chanWr = s.chanWr ++ framesFrom s.config 1 (packetsOf D) ++ [0x04, 0x04] ∧
      u.chanRd = rest ∧ u.chanWrAns = restW ∧ u.src = [] ∧
      u.sink = s.sink ∧ u.host = s.host ∧ u.config = s.config

/-- R206 for a schedule of the model's choosing (log 27): TRANSMIT of `D` and RECEIVE on two fresh engines of one implementation,
whatever its parameters and its checksum, joined by the clean channel both end, with `Ok(len(D))` and `Ok(128 * ceil(len(D) /
128))`, and the sink holds `D` followed by zeros. For more than 32640 bytes, which is more than 255 packets, it rests on decision D4,
the wrap of `packet_number` modulo 256 (R114, R277). -/
def Obligations.RoundTripOverTheCleanChannel : Prop :=
  ∀ (c : Config) (D : List Byte), ∃ schedule : List Role,
    let p := (transferOf c D).run schedule
    p.sender.phase = .terminated ∧ p.receiver.phase = .terminated ∧
    p.sender.result = .ok D.length ∧
    p.receiver.result = .ok (128 * ((D.length + 127) / 128)) ∧
    p.receiver.sink = D ++ List.replicate (128 * ((D.length + 127) / 128) - D.length) 0x00

/-! ### Reset, host registers, waiting -/

/-- R260 to R262: the reset input acts in every phase, before anything else: every register takes its reset value, no RESULT is left
for the command it stops, and no stream is touched. The values of `x`, RESULT, `acc`, CMD and ARG are the model's (log 8 to 11), as
is that `codecOut` is cleared (log 7); so is that the step releases the pin (log 19). -/
def Obligations.ResetStopsAnyCommand : Prop :=
  ∀ s : State, s.resetPin = true →
    step s = .next { State.reset with
      config := s.config, chanRd := s.chanRd, chanWrAns := s.chanWrAns, chanWr := s.chanWr, src := s.src
      sinkAns := s.sinkAns, sink := s.sink, again := s.again, host := s.host }

/-- R36: the reset values the spec gives. -/
def Obligations.ResetValues : Prop :=
  State.reset.packetNumber = 1 ∧ State.reset.handshakeDone = false ∧ State.reset.phase = .idle ∧
  State.reset.status = { handshakeDone := false, terminated := false, busy := false } ∧
  (∀ i, State.reset.xWritten.get i = false) ∧ State.reset.resultValid = false ∧ State.reset.role = none ∧
  State.reset.attempt = 0 ∧ State.reset.outer = 0 ∧ State.reset.n = 0 ∧ State.reset.total = 0 ∧ State.reset.pos = 0

/-- R23, R31: the host's reads and writes. While busy, `x` and RESULT are refused; an entry never written and a RESULT before any
command has ended are refused; a write of `x[i]` changes that entry alone, and the host reads it back. That this holds while
Terminated as well as Idle is log 22. STATUS and `packet_number` are readable in every state (R28, R29, R31). -/
def Obligations.HostRegisterAccess : Prop :=
  ∀ (s : State) (i : Fin dataLen) (v : Byte),
    hostReadStatus s = {
      handshakeDone := s.handshakeDone
      terminated := decide (s.phase = .terminated)
      busy := decide (s.phase ≠ .idle ∧ s.phase ≠ .terminated) } ∧
    hostReadPacketNumber s = s.packetNumber ∧
    (s.busy = true → hostReadX i s = .error .busy ∧ hostReadResult s = .error .busy ∧ hostWriteX i v s = .refused .busy) ∧
    (s.busy = false →
      hostReadX i s = (if s.xWritten.get i then .ok (s.x.get i) else .error .bufferUnwritten) ∧
      hostReadResult s = (if s.resultValid then .ok s.result else .error .resultNotValid) ∧
      ∃ t, hostWriteX i v s = .next t ∧ t = { s with x := t.x, xWritten := t.xWritten } ∧
        hostReadX i t = .ok v ∧ ∀ j, j ≠ i → hostReadX j t = hostReadX j s)

/-- R57, R36: a step has no step to take exactly when the port of the engine's phase is unanswered, or when an engine that is not
busy has been given no command; the source always answers (log 3). -/
def Obligations.NoStepExactlyWhileWaiting : Prop :=
  ∀ (s : State) (r : Fault), step s = .fault r ↔
    s.resetPin = false ∧
    ((s.phase.port = some .chanRd ∧ s.chanRd = [] ∧ s.again.chanRd = [] ∧ r = .waiting .chanRd) ∨
     (s.phase.port = some .chanWr ∧ s.chanWrAns = [] ∧ s.again.chanWrAns = [] ∧ r = .waiting .chanWr) ∨
     (s.phase.port = some .sink ∧ s.sinkAns = [] ∧ s.again.sinkAns = [] ∧ r = .waiting .sink) ∨
     (s.busy = false ∧ s.host = [] ∧ r = .waitingForCommand))

/-- A busy engine is never refused a step: only a command, while the engine is not busy, is (R93, R147, R174). -/
def Obligations.OnlyCommandsAreRefused : Prop :=
  ∀ (s : State) (r : Refusal), step s = .refused r →
    s.resetPin = false ∧ s.busy = false ∧ (∃ op arg rest, s.host = .command op arg :: rest) ∧
      (r = .terminated ∨ r = .wrongRole ∨ r = .bufferUnwritten ∨ ∃ op, r = .reservedCommand op)

/-! ### What every step keeps -/

/-- R22: `packet_number` is written only by reset and the commands that begin with NEW (to 1), by the accept step of RX_PACKET,
and by TX_PACKET on reading ACK, the last two by increment, wrapping from 255 to 0 by decision D4 (R114). -/
def Obligations.PacketNumberWriters : Prop :=
  ∀ s t : State, step s = .next t → t.packetNumber ≠ s.packetNumber →
    (t.packetNumber = 1 ∧ (s.resetPin = true ∨
      ∃ op arg rest, s.busy = false ∧ s.host = .command op arg :: rest ∧ (op = 0 ∨ op = 3 ∨ op = 4))) ∨
    (t.packetNumber = BitVec.ofNat 8 ((s.packetNumber.toNat + 1) % 256) ∧
      ((s.phase = .rxAck ∧ ∃ rest, s.writeAnswers = .accepted :: rest) ∨
       (s.phase = .txReply ∧ ∃ rest, s.readAnswers = .byte 0x06 :: rest)))

/-- R28: `handshake_done` is set only by the accepted handshake NAK of a receiver or by NAK read as the handshake byte of a sender,
and cleared only by reset and the commands that begin with NEW. -/
def Obligations.HandshakeFlagWriters : Prop :=
  ∀ s t : State, step s = .next t →
    (s.handshakeDone = false → t.handshakeDone = true →
      (s.phase = .rxHsNak ∧ ∃ rest, s.writeAnswers = .accepted :: rest) ∨
      (s.phase = .txHandshake ∧ ∃ rest, s.readAnswers = .byte 0x15 :: rest)) ∧
    (s.handshakeDone = true → t.handshakeDone = false →
      s.resetPin = true ∨
      ∃ op arg rest, s.busy = false ∧ s.host = .command op arg :: rest ∧ (op = 0 ∨ op = 3 ∨ op = 4))

/-- R29: the engine becomes Terminated only by the accepted final ACK of a receiver or by reading the final ACK as a sender, and
leaves Terminated only by reset, NEW, RECEIVE and TRANSMIT. -/
def Obligations.TerminatedFlagWriters : Prop :=
  ∀ s t : State, step s = .next t →
    (s.phase ≠ .terminated → t.phase = .terminated →
      (s.phase = .rxEotAck ∧ ∃ rest, s.writeAnswers = .accepted :: rest) ∨
      (s.phase = .txEot2 ∧ ∃ rest, s.readAnswers = .byte 0x06 :: rest)) ∧
    (s.phase = .terminated → t.phase ≠ .terminated →
      s.resetPin = true ∨ ∃ op arg rest, s.host = .command op arg :: rest ∧ (op = 0 ∨ op = 3 ∨ op = 4))

/-- `x` is written only at `RX_DATA`, by TRANSMIT loading a chunk, by a host write (R23), and by reset and the commands that begin
with NEW (R36, R190). So TX_PACKET never changes it. That the host may write it while Terminated as well as Idle is log 22. -/
def Obligations.PacketBufferWriters : Prop :=
  ∀ s t : State, step s = .next t → t.x ≠ s.x →
    s.resetPin = true ∨ (∃ i, s.phase = .rxData i) ∨ s.phase = .trSrc ∨
    (s.busy = false ∧
      ((∃ i v rest, s.host = .writeX i v :: rest) ∨
       (∃ op arg rest, s.host = .command op arg :: rest ∧ (op = 0 ∨ op = 3 ∨ op = 4))))

/-- R32: RESULT is overwritten by the end of every command and by nothing else. A step that changes RESULT or whether it is valid is
the end of a running command, a packet command that ends as it is given with `ContractViolation`, or reset and the commands that
begin with NEW (R36, R190); so no host write of `x`, no other command and no step inside a command changes it. A step in which a
command ends leaves RESULT valid. Within a driver command no packet command writes it (log 23). -/
def Obligations.ResultWrittenAtTheEndOnly : Prop :=
  ∀ s t : State, step s = .next t → s.resetPin = false →
    (t.result ≠ s.result ∨ t.resultValid ≠ s.resultValid →
      (s.busy = true ∧ t.busy = false) ∨
      (s.busy = false ∧ t.busy = false ∧ t.resultValid = true ∧ (∃ c, t.result = .err (.contractViolation c)) ∧
        ∃ op arg rest, s.host = .command op arg :: rest ∧ (op = 1 ∨ op = 2)) ∨
      (s.busy = false ∧ ∃ op arg rest, s.host = .command op arg :: rest ∧ (op = 0 ∨ op = 3 ∨ op = 4))) ∧
    (s.busy = true → t.busy = false → t.resultValid = true)

/-- R68, R71: what one step can do to the streams. A read takes at most the next answer of `CHAN_RD`, and only at a channel
read site; a write appends at most the byte the phase offers, and only at a channel write site; the source is read only at `TR_SRC`;
the sink grows only at `RC_SINK`, by the 128 bytes of `x`; the parameters and the environment's repeated answers never change. -/
def Obligations.StreamsMoveOnlyAtTheirPort : Prop :=
  ∀ s t : State, step s = .next t →
    (t.chanRd = s.chanRd ∨ (s.phase.port = some .chanRd ∧ ∃ a, s.readAnswers = a :: t.chanRd)) ∧
    (t.chanWr = s.chanWr ∨
      (s.phase.port = some .chanWr ∧ ∃ b, s.offeredByte = some b ∧ t.chanWr = s.chanWr ++ [b])) ∧
    (t.chanWrAns = s.chanWrAns ∨ (s.phase.port = some .chanWr ∧ ∃ a, s.writeAnswers = a :: t.chanWrAns)) ∧
    (t.src = s.src ∨ (s.phase = .trSrc ∧ ∃ a, s.sourceAnswers = a :: t.src)) ∧
    (t.sink = s.sink ∨ (s.phase = .rcSink ∧ t.sink = s.sink ++ s.x.toList)) ∧
    (t.sinkAns = s.sinkAns ∨ (s.phase = .rcSink ∧ ∃ a, s.sinkAnswers = a :: t.sinkAns)) ∧
    t.config = s.config ∧ t.again = s.again

/-- R196: during RECEIVE, `total` grows exactly as the sink does. -/
def Obligations.ReceiveCountsItsSink : Prop :=
  ∀ s t : State, step s = .next t → s.resetPin = false → s.busy = true → s.cmd = .receive →
    t.cmd = .receive ∧ t.total + s.sink.length = s.total + t.sink.length

/-- R143, R223: no receiver command ends with `RetryExhausted`, whatever RESULT held before; and in a sender command
`RetryExhausted(Inner)` comes only from a NAK on the tenth attempt, `RetryExhausted(Outer)` only from the tenth TX_PACKET of a
chunk. -/
def Obligations.RetryExhaustionIsTheSendersOnly : Prop :=
  ∀ s t : State, s.Inv → s.resetPin = false → step s = .next t → s.busy = true → t.busy = false →
    (s.phase.owner = some .receiver → ∀ scope, t.result ≠ .err (.retryExhausted scope)) ∧
    (t.result = .err (.retryExhausted .inner) →
      s.phase = .txReply ∧ s.attempt = 10 ∧ ∃ rest, s.readAnswers = .byte 0x15 :: rest) ∧
    (t.result = .err (.retryExhausted .outer) → s.cmd = .transmit ∧ s.outer = 10 ∧ s.len = 128)

/-- The invariant: counters in range (R26, R27), one role served (R245), one handshake before the first packet (R20, R28), operands
checked (R131, R161), no unwritten buffer entry sent or delivered (R23, R174), whole packets counted and `Terminated` only after `Ok`
(R29, R196). Every step keeps it. -/
def Obligations.EveryStepKeepsTheInvariant : Prop :=
  ∀ s t : State, s.Inv → step s = .next t → t.Inv

/-- The invariant holds at reset, with the reset values of log 8 to 12. -/
def Obligations.ResetMeetsTheInvariant : Prop := State.reset.Inv
end

