-- ==== Sys2Proof/Laws/Checksum.lean ====
section
/-! SUPPORT. The checksum as a parameter (R8, R111, log 13): every function of 128-byte blocks is the checksum of some configuration,
so a statement over every configuration assumes nothing of the checksum but that it is a function of the block. -/

namespace Sys2Proof.Machine

/-- Without overrides the checksum is R111's. -/
@[simp] theorem checksumOf_of_no_overrides {c : Config} (h : c.cksumOverrides = []) (d : List Byte) : checksumOf c d = cksum d := by
  simp [checksumOf, h]

/-- The reset state's checksum is the normative one. -/
theorem normativeChecksum_default : NormativeChecksum defaultConfig := fun _ => rfl

/-- All blocks of `n` bytes. -/
def blocks : Nat → List (List Byte)
  | 0 => [[]]
  | n + 1 => (blocks n).flatMap fun d => (List.finRange 256).map fun b => BitVec.ofFin b :: d

theorem mem_blocks (d : List Byte) : d ∈ blocks d.length := by
  induction d with
  | nil => simp [blocks]
  | cons b d ih =>
    simp only [blocks, List.length_cons, List.mem_flatMap, List.mem_map]
    exact ⟨d, ih, b.toFin, List.mem_finRange _, rfl⟩

/-- A table made from a function reads back as the function. -/
theorem lookup_table (f : List Byte → Byte) {ds : List (List Byte)} {d : List Byte} (h : d ∈ ds) :
    (ds.map fun e => (e, f e)).lookup d = some (f d) := by
  induction ds with
  | nil => cases h
  | cons e ds ih =>
    by_cases he : d = e
    · simp [he]
    · have hb : (d == e) = false := by simpa using he
      simp only [List.map_cons, List.lookup, hb]
      exact ih (by simpa [he] using h)

/-- Every total function of 128 bytes is the checksum of a configuration that differs from a given one in nothing else. -/
theorem every_function_is_a_checksum (f : List Byte → Byte) (c : Config) :
    ∃ o, ∀ d : List Byte, d.length = 128 → checksumOf { c with cksumOverrides := o } d = f d := by
  refine ⟨(blocks 128).map fun e => (e, f e), fun d hd => ?_⟩
  have h : d ∈ blocks 128 := by
    rw [← hd]
    exact mem_blocks d
  simp only [checksumOf, lookup_table f h]

end Sys2Proof.Machine
end

