-- ==== Sys2Proof/Laws/State.lean ====
section
/-! SUPPORT. One lemma per field for each named update of the state, true by `rfl`, so that no later proof unfolds one. -/

namespace Sys2Proof.Machine

/-! `goto` -/

@[simp] theorem goto_packetNumber (p : Phase) (s : State) : (s.goto p).packetNumber = s.packetNumber := rfl
@[simp] theorem goto_x (p : Phase) (s : State) : (s.goto p).x = s.x := rfl
@[simp] theorem goto_xWritten (p : Phase) (s : State) : (s.goto p).xWritten = s.xWritten := rfl
@[simp] theorem goto_phase (p : Phase) (s : State) : (s.goto p).phase = p := rfl
@[simp] theorem goto_acc (p : Phase) (s : State) : (s.goto p).acc = s.acc := rfl
@[simp] theorem goto_attempt (p : Phase) (s : State) : (s.goto p).attempt = s.attempt := rfl
@[simp] theorem goto_outer (p : Phase) (s : State) : (s.goto p).outer = s.outer := rfl
@[simp] theorem goto_n (p : Phase) (s : State) : (s.goto p).n = s.n := rfl
@[simp] theorem goto_total (p : Phase) (s : State) : (s.goto p).total = s.total := rfl
@[simp] theorem goto_pos (p : Phase) (s : State) : (s.goto p).pos = s.pos := rfl
@[simp] theorem goto_handshakeDone (p : Phase) (s : State) : (s.goto p).handshakeDone = s.handshakeDone := rfl
@[simp] theorem goto_role (p : Phase) (s : State) : (s.goto p).role = s.role := rfl
@[simp] theorem goto_cmd (p : Phase) (s : State) : (s.goto p).cmd = s.cmd := rfl
@[simp] theorem goto_len (p : Phase) (s : State) : (s.goto p).len = s.len := rfl
@[simp] theorem goto_result (p : Phase) (s : State) : (s.goto p).result = s.result := rfl
@[simp] theorem goto_resultValid (p : Phase) (s : State) : (s.goto p).resultValid = s.resultValid := rfl
@[simp] theorem goto_codecOut (p : Phase) (s : State) : (s.goto p).codecOut = s.codecOut := rfl
@[simp] theorem goto_config (p : Phase) (s : State) : (s.goto p).config = s.config := rfl
@[simp] theorem goto_chanRd (p : Phase) (s : State) : (s.goto p).chanRd = s.chanRd := rfl
@[simp] theorem goto_chanWrAns (p : Phase) (s : State) : (s.goto p).chanWrAns = s.chanWrAns := rfl
@[simp] theorem goto_chanWr (p : Phase) (s : State) : (s.goto p).chanWr = s.chanWr := rfl
@[simp] theorem goto_src (p : Phase) (s : State) : (s.goto p).src = s.src := rfl
@[simp] theorem goto_sinkAns (p : Phase) (s : State) : (s.goto p).sinkAns = s.sinkAns := rfl
@[simp] theorem goto_sink (p : Phase) (s : State) : (s.goto p).sink = s.sink := rfl
@[simp] theorem goto_again (p : Phase) (s : State) : (s.goto p).again = s.again := rfl
@[simp] theorem goto_host (p : Phase) (s : State) : (s.goto p).host = s.host := rfl
@[simp] theorem goto_resetPin (p : Phase) (s : State) : (s.goto p).resetPin = s.resetPin := rfl

/-! `endCommand` -/

@[simp] theorem endCommand_packetNumber (r : CmdResult) (p : Phase) (s : State) : (endCommand r p s).packetNumber = s.packetNumber := rfl
@[simp] theorem endCommand_x (r : CmdResult) (p : Phase) (s : State) : (endCommand r p s).x = s.x := rfl
@[simp] theorem endCommand_xWritten (r : CmdResult) (p : Phase) (s : State) : (endCommand r p s).xWritten = s.xWritten := rfl
@[simp] theorem endCommand_phase (r : CmdResult) (p : Phase) (s : State) : (endCommand r p s).phase = p := rfl
@[simp] theorem endCommand_acc (r : CmdResult) (p : Phase) (s : State) : (endCommand r p s).acc = s.acc := rfl
@[simp] theorem endCommand_attempt (r : CmdResult) (p : Phase) (s : State) : (endCommand r p s).attempt = s.attempt := rfl
@[simp] theorem endCommand_outer (r : CmdResult) (p : Phase) (s : State) : (endCommand r p s).outer = s.outer := rfl
@[simp] theorem endCommand_n (r : CmdResult) (p : Phase) (s : State) : (endCommand r p s).n = s.n := rfl
@[simp] theorem endCommand_total (r : CmdResult) (p : Phase) (s : State) : (endCommand r p s).total = s.total := rfl
@[simp] theorem endCommand_pos (r : CmdResult) (p : Phase) (s : State) : (endCommand r p s).pos = s.pos := rfl
@[simp] theorem endCommand_handshakeDone (r : CmdResult) (p : Phase) (s : State) : (endCommand r p s).handshakeDone = s.handshakeDone := rfl
@[simp] theorem endCommand_role (r : CmdResult) (p : Phase) (s : State) : (endCommand r p s).role = s.role := rfl
@[simp] theorem endCommand_cmd (r : CmdResult) (p : Phase) (s : State) : (endCommand r p s).cmd = s.cmd := rfl
@[simp] theorem endCommand_len (r : CmdResult) (p : Phase) (s : State) : (endCommand r p s).len = s.len := rfl
@[simp] theorem endCommand_result (r : CmdResult) (p : Phase) (s : State) : (endCommand r p s).result = r := rfl
@[simp] theorem endCommand_resultValid (r : CmdResult) (p : Phase) (s : State) : (endCommand r p s).resultValid = true := rfl
@[simp] theorem endCommand_codecOut (r : CmdResult) (p : Phase) (s : State) : (endCommand r p s).codecOut = s.codecOut := rfl
@[simp] theorem endCommand_config (r : CmdResult) (p : Phase) (s : State) : (endCommand r p s).config = s.config := rfl
@[simp] theorem endCommand_chanRd (r : CmdResult) (p : Phase) (s : State) : (endCommand r p s).chanRd = s.chanRd := rfl
@[simp] theorem endCommand_chanWrAns (r : CmdResult) (p : Phase) (s : State) : (endCommand r p s).chanWrAns = s.chanWrAns := rfl
@[simp] theorem endCommand_chanWr (r : CmdResult) (p : Phase) (s : State) : (endCommand r p s).chanWr = s.chanWr := rfl
@[simp] theorem endCommand_src (r : CmdResult) (p : Phase) (s : State) : (endCommand r p s).src = s.src := rfl
@[simp] theorem endCommand_sinkAns (r : CmdResult) (p : Phase) (s : State) : (endCommand r p s).sinkAns = s.sinkAns := rfl
@[simp] theorem endCommand_sink (r : CmdResult) (p : Phase) (s : State) : (endCommand r p s).sink = s.sink := rfl
@[simp] theorem endCommand_again (r : CmdResult) (p : Phase) (s : State) : (endCommand r p s).again = s.again := rfl
@[simp] theorem endCommand_host (r : CmdResult) (p : Phase) (s : State) : (endCommand r p s).host = s.host := rfl
@[simp] theorem endCommand_resetPin (r : CmdResult) (p : Phase) (s : State) : (endCommand r p s).resetPin = s.resetPin := rfl

/-! `setX` -/

@[simp] theorem setX_packetNumber (i : Fin dataLen) (v : Byte) (s : State) : (s.setX i v).packetNumber = s.packetNumber := rfl
@[simp] theorem setX_x (i : Fin dataLen) (v : Byte) (s : State) : (s.setX i v).x = s.x.set i.val v i.isLt := rfl
@[simp] theorem setX_xWritten (i : Fin dataLen) (v : Byte) (s : State) : (s.setX i v).xWritten = s.xWritten.set i.val true i.isLt := rfl
@[simp] theorem setX_phase (i : Fin dataLen) (v : Byte) (s : State) : (s.setX i v).phase = s.phase := rfl
@[simp] theorem setX_acc (i : Fin dataLen) (v : Byte) (s : State) : (s.setX i v).acc = s.acc := rfl
@[simp] theorem setX_attempt (i : Fin dataLen) (v : Byte) (s : State) : (s.setX i v).attempt = s.attempt := rfl
@[simp] theorem setX_outer (i : Fin dataLen) (v : Byte) (s : State) : (s.setX i v).outer = s.outer := rfl
@[simp] theorem setX_n (i : Fin dataLen) (v : Byte) (s : State) : (s.setX i v).n = s.n := rfl
@[simp] theorem setX_total (i : Fin dataLen) (v : Byte) (s : State) : (s.setX i v).total = s.total := rfl
@[simp] theorem setX_pos (i : Fin dataLen) (v : Byte) (s : State) : (s.setX i v).pos = s.pos := rfl
@[simp] theorem setX_handshakeDone (i : Fin dataLen) (v : Byte) (s : State) : (s.setX i v).handshakeDone = s.handshakeDone := rfl
@[simp] theorem setX_role (i : Fin dataLen) (v : Byte) (s : State) : (s.setX i v).role = s.role := rfl
@[simp] theorem setX_cmd (i : Fin dataLen) (v : Byte) (s : State) : (s.setX i v).cmd = s.cmd := rfl
@[simp] theorem setX_len (i : Fin dataLen) (v : Byte) (s : State) : (s.setX i v).len = s.len := rfl
@[simp] theorem setX_result (i : Fin dataLen) (v : Byte) (s : State) : (s.setX i v).result = s.result := rfl
@[simp] theorem setX_resultValid (i : Fin dataLen) (v : Byte) (s : State) : (s.setX i v).resultValid = s.resultValid := rfl
@[simp] theorem setX_codecOut (i : Fin dataLen) (v : Byte) (s : State) : (s.setX i v).codecOut = s.codecOut := rfl
@[simp] theorem setX_config (i : Fin dataLen) (v : Byte) (s : State) : (s.setX i v).config = s.config := rfl
@[simp] theorem setX_chanRd (i : Fin dataLen) (v : Byte) (s : State) : (s.setX i v).chanRd = s.chanRd := rfl
@[simp] theorem setX_chanWrAns (i : Fin dataLen) (v : Byte) (s : State) : (s.setX i v).chanWrAns = s.chanWrAns := rfl
@[simp] theorem setX_chanWr (i : Fin dataLen) (v : Byte) (s : State) : (s.setX i v).chanWr = s.chanWr := rfl
@[simp] theorem setX_src (i : Fin dataLen) (v : Byte) (s : State) : (s.setX i v).src = s.src := rfl
@[simp] theorem setX_sinkAns (i : Fin dataLen) (v : Byte) (s : State) : (s.setX i v).sinkAns = s.sinkAns := rfl
@[simp] theorem setX_sink (i : Fin dataLen) (v : Byte) (s : State) : (s.setX i v).sink = s.sink := rfl
@[simp] theorem setX_again (i : Fin dataLen) (v : Byte) (s : State) : (s.setX i v).again = s.again := rfl
@[simp] theorem setX_host (i : Fin dataLen) (v : Byte) (s : State) : (s.setX i v).host = s.host := rfl
@[simp] theorem setX_resetPin (i : Fin dataLen) (v : Byte) (s : State) : (s.setX i v).resetPin = s.resetPin := rfl

/-! `padX` -/

@[simp] theorem padX_packetNumber (s : State) : (s.padX).packetNumber = s.packetNumber := rfl
@[simp] theorem padX_x (s : State) : (s.padX).x = padFrom s.n s.x := rfl
@[simp] theorem padX_xWritten (s : State) : (s.padX).xWritten = writtenFrom s.n s.xWritten := rfl
@[simp] theorem padX_phase (s : State) : (s.padX).phase = s.phase := rfl
@[simp] theorem padX_acc (s : State) : (s.padX).acc = s.acc := rfl
@[simp] theorem padX_attempt (s : State) : (s.padX).attempt = s.attempt := rfl
@[simp] theorem padX_outer (s : State) : (s.padX).outer = s.outer := rfl
@[simp] theorem padX_n (s : State) : (s.padX).n = s.n := rfl
@[simp] theorem padX_total (s : State) : (s.padX).total = s.total := rfl
@[simp] theorem padX_pos (s : State) : (s.padX).pos = s.pos := rfl
@[simp] theorem padX_handshakeDone (s : State) : (s.padX).handshakeDone = s.handshakeDone := rfl
@[simp] theorem padX_role (s : State) : (s.padX).role = s.role := rfl
@[simp] theorem padX_cmd (s : State) : (s.padX).cmd = s.cmd := rfl
@[simp] theorem padX_len (s : State) : (s.padX).len = s.len := rfl
@[simp] theorem padX_result (s : State) : (s.padX).result = s.result := rfl
@[simp] theorem padX_resultValid (s : State) : (s.padX).resultValid = s.resultValid := rfl
@[simp] theorem padX_codecOut (s : State) : (s.padX).codecOut = s.codecOut := rfl
@[simp] theorem padX_config (s : State) : (s.padX).config = s.config := rfl
@[simp] theorem padX_chanRd (s : State) : (s.padX).chanRd = s.chanRd := rfl
@[simp] theorem padX_chanWrAns (s : State) : (s.padX).chanWrAns = s.chanWrAns := rfl
@[simp] theorem padX_chanWr (s : State) : (s.padX).chanWr = s.chanWr := rfl
@[simp] theorem padX_src (s : State) : (s.padX).src = s.src := rfl
@[simp] theorem padX_sinkAns (s : State) : (s.padX).sinkAns = s.sinkAns := rfl
@[simp] theorem padX_sink (s : State) : (s.padX).sink = s.sink := rfl
@[simp] theorem padX_again (s : State) : (s.padX).again = s.again := rfl
@[simp] theorem padX_host (s : State) : (s.padX).host = s.host := rfl
@[simp] theorem padX_resetPin (s : State) : (s.padX).resetPin = s.resetPin := rfl

/-! `sendFrame` -/

@[simp] theorem sendFrame_packetNumber (s : State) : (sendFrame s).packetNumber = s.packetNumber := rfl
@[simp] theorem sendFrame_x (s : State) : (sendFrame s).x = s.x := rfl
@[simp] theorem sendFrame_xWritten (s : State) : (sendFrame s).xWritten = s.xWritten := rfl
@[simp] theorem sendFrame_phase (s : State) : (sendFrame s).phase = .txSoh := rfl
@[simp] theorem sendFrame_acc (s : State) : (sendFrame s).acc = s.acc := rfl
@[simp] theorem sendFrame_attempt (s : State) : (sendFrame s).attempt = s.attempt + 1 := rfl
@[simp] theorem sendFrame_outer (s : State) : (sendFrame s).outer = s.outer := rfl
@[simp] theorem sendFrame_n (s : State) : (sendFrame s).n = s.n := rfl
@[simp] theorem sendFrame_total (s : State) : (sendFrame s).total = s.total := rfl
@[simp] theorem sendFrame_pos (s : State) : (sendFrame s).pos = s.pos := rfl
@[simp] theorem sendFrame_handshakeDone (s : State) : (sendFrame s).handshakeDone = s.handshakeDone := rfl
@[simp] theorem sendFrame_role (s : State) : (sendFrame s).role = s.role := rfl
@[simp] theorem sendFrame_cmd (s : State) : (sendFrame s).cmd = s.cmd := rfl
@[simp] theorem sendFrame_len (s : State) : (sendFrame s).len = s.len := rfl
@[simp] theorem sendFrame_result (s : State) : (sendFrame s).result = s.result := rfl
@[simp] theorem sendFrame_resultValid (s : State) : (sendFrame s).resultValid = s.resultValid := rfl
@[simp] theorem sendFrame_codecOut (s : State) : (sendFrame s).codecOut = s.codecOut := rfl
@[simp] theorem sendFrame_config (s : State) : (sendFrame s).config = s.config := rfl
@[simp] theorem sendFrame_chanRd (s : State) : (sendFrame s).chanRd = s.chanRd := rfl
@[simp] theorem sendFrame_chanWrAns (s : State) : (sendFrame s).chanWrAns = s.chanWrAns := rfl
@[simp] theorem sendFrame_chanWr (s : State) : (sendFrame s).chanWr = s.chanWr := rfl
@[simp] theorem sendFrame_src (s : State) : (sendFrame s).src = s.src := rfl
@[simp] theorem sendFrame_sinkAns (s : State) : (sendFrame s).sinkAns = s.sinkAns := rfl
@[simp] theorem sendFrame_sink (s : State) : (sendFrame s).sink = s.sink := rfl
@[simp] theorem sendFrame_again (s : State) : (sendFrame s).again = s.again := rfl
@[simp] theorem sendFrame_host (s : State) : (sendFrame s).host = s.host := rfl
@[simp] theorem sendFrame_resetPin (s : State) : (sendFrame s).resetPin = s.resetPin := rfl

/-! `freshEngine` -/

@[simp] theorem freshEngine_packetNumber (s : State) : (freshEngine s).packetNumber = State.reset.packetNumber := rfl
@[simp] theorem freshEngine_x (s : State) : (freshEngine s).x = State.reset.x := rfl
@[simp] theorem freshEngine_xWritten (s : State) : (freshEngine s).xWritten = State.reset.xWritten := rfl
@[simp] theorem freshEngine_phase (s : State) : (freshEngine s).phase = State.reset.phase := rfl
@[simp] theorem freshEngine_acc (s : State) : (freshEngine s).acc = State.reset.acc := rfl
@[simp] theorem freshEngine_attempt (s : State) : (freshEngine s).attempt = State.reset.attempt := rfl
@[simp] theorem freshEngine_outer (s : State) : (freshEngine s).outer = State.reset.outer := rfl
@[simp] theorem freshEngine_n (s : State) : (freshEngine s).n = State.reset.n := rfl
@[simp] theorem freshEngine_total (s : State) : (freshEngine s).total = State.reset.total := rfl
@[simp] theorem freshEngine_pos (s : State) : (freshEngine s).pos = State.reset.pos := rfl
@[simp] theorem freshEngine_handshakeDone (s : State) : (freshEngine s).handshakeDone = State.reset.handshakeDone := rfl
@[simp] theorem freshEngine_role (s : State) : (freshEngine s).role = State.reset.role := rfl
@[simp] theorem freshEngine_cmd (s : State) : (freshEngine s).cmd = State.reset.cmd := rfl
@[simp] theorem freshEngine_len (s : State) : (freshEngine s).len = State.reset.len := rfl
@[simp] theorem freshEngine_result (s : State) : (freshEngine s).result = State.reset.result := rfl
@[simp] theorem freshEngine_resultValid (s : State) : (freshEngine s).resultValid = State.reset.resultValid := rfl
@[simp] theorem freshEngine_codecOut (s : State) : (freshEngine s).codecOut = State.reset.codecOut := rfl
@[simp] theorem freshEngine_config (s : State) : (freshEngine s).config = s.config := rfl
@[simp] theorem freshEngine_chanRd (s : State) : (freshEngine s).chanRd = s.chanRd := rfl
@[simp] theorem freshEngine_chanWrAns (s : State) : (freshEngine s).chanWrAns = s.chanWrAns := rfl
@[simp] theorem freshEngine_chanWr (s : State) : (freshEngine s).chanWr = s.chanWr := rfl
@[simp] theorem freshEngine_src (s : State) : (freshEngine s).src = s.src := rfl
@[simp] theorem freshEngine_sinkAns (s : State) : (freshEngine s).sinkAns = s.sinkAns := rfl
@[simp] theorem freshEngine_sink (s : State) : (freshEngine s).sink = s.sink := rfl
@[simp] theorem freshEngine_again (s : State) : (freshEngine s).again = s.again := rfl
@[simp] theorem freshEngine_host (s : State) : (freshEngine s).host = s.host := rfl
@[simp] theorem freshEngine_resetPin (s : State) : (freshEngine s).resetPin = s.resetPin := rfl

/-! `takeReset` -/

@[simp] theorem takeReset_packetNumber (s : State) : (takeReset s).packetNumber = State.reset.packetNumber := rfl
@[simp] theorem takeReset_x (s : State) : (takeReset s).x = State.reset.x := rfl
@[simp] theorem takeReset_xWritten (s : State) : (takeReset s).xWritten = State.reset.xWritten := rfl
@[simp] theorem takeReset_phase (s : State) : (takeReset s).phase = State.reset.phase := rfl
@[simp] theorem takeReset_acc (s : State) : (takeReset s).acc = State.reset.acc := rfl
@[simp] theorem takeReset_attempt (s : State) : (takeReset s).attempt = State.reset.attempt := rfl
@[simp] theorem takeReset_outer (s : State) : (takeReset s).outer = State.reset.outer := rfl
@[simp] theorem takeReset_n (s : State) : (takeReset s).n = State.reset.n := rfl
@[simp] theorem takeReset_total (s : State) : (takeReset s).total = State.reset.total := rfl
@[simp] theorem takeReset_pos (s : State) : (takeReset s).pos = State.reset.pos := rfl
@[simp] theorem takeReset_handshakeDone (s : State) : (takeReset s).handshakeDone = State.reset.handshakeDone := rfl
@[simp] theorem takeReset_role (s : State) : (takeReset s).role = State.reset.role := rfl
@[simp] theorem takeReset_cmd (s : State) : (takeReset s).cmd = State.reset.cmd := rfl
@[simp] theorem takeReset_len (s : State) : (takeReset s).len = State.reset.len := rfl
@[simp] theorem takeReset_result (s : State) : (takeReset s).result = State.reset.result := rfl
@[simp] theorem takeReset_resultValid (s : State) : (takeReset s).resultValid = State.reset.resultValid := rfl
@[simp] theorem takeReset_codecOut (s : State) : (takeReset s).codecOut = State.reset.codecOut := rfl
@[simp] theorem takeReset_config (s : State) : (takeReset s).config = s.config := rfl
@[simp] theorem takeReset_chanRd (s : State) : (takeReset s).chanRd = s.chanRd := rfl
@[simp] theorem takeReset_chanWrAns (s : State) : (takeReset s).chanWrAns = s.chanWrAns := rfl
@[simp] theorem takeReset_chanWr (s : State) : (takeReset s).chanWr = s.chanWr := rfl
@[simp] theorem takeReset_src (s : State) : (takeReset s).src = s.src := rfl
@[simp] theorem takeReset_sinkAns (s : State) : (takeReset s).sinkAns = s.sinkAns := rfl
@[simp] theorem takeReset_sink (s : State) : (takeReset s).sink = s.sink := rfl
@[simp] theorem takeReset_again (s : State) : (takeReset s).again = s.again := rfl
@[simp] theorem takeReset_host (s : State) : (takeReset s).host = s.host := rfl
@[simp] theorem takeReset_resetPin (s : State) : (takeReset s).resetPin = false := rfl

/-! The accessors on an updated state. -/

@[simp] theorem busy_goto (p : Phase) (s : State) :
    (s.goto p).busy = (!(p == .idle) && !(p == .terminated)) := rfl

@[simp] theorem busy_endCommand_idle (r : CmdResult) (s : State) : (endCommand r .idle s).busy = false := rfl

@[simp] theorem busy_endCommand_terminated (r : CmdResult) (s : State) :
    (endCommand r .terminated s).busy = false := rfl

@[simp] theorem busy_freshEngine (s : State) : (freshEngine s).busy = false := rfl

/-- The engine is busy exactly while its phase has a port operation. -/
theorem busy_eq_port_isSome (s : State) : s.busy = s.phase.port.isSome := by
  unfold State.busy
  cases s.phase <;> rfl

/-- The busy phases are the ones with a site. -/
theorem busy_eq_site_isSome (s : State) : s.busy = s.phase.site.isSome := by
  unfold State.busy
  cases s.phase <;> rfl

/-- Reading back a written packet-buffer register. -/
theorem setX_get_same (s : State) (i : Fin dataLen) (v : Byte) : (s.setX i v).x.get i = v := by
  simp [Vector.get_eq_getElem]

/-- A write of one packet-buffer register leaves every other alone. -/
theorem setX_get_other (s : State) (i j : Fin dataLen) (v : Byte) (h : j ≠ i) :
    (s.setX i v).x.get j = s.x.get j := by
  have h' : i.val ≠ j.val := fun e => h (Fin.ext e.symm)
  simp [Vector.get_eq_getElem, h']

end Sys2Proof.Machine
end

