-- ==== Sys2Proof/Laws/Ops.lean ====
section
/-! SUPPORT. What each shared operation can do, said once: the equations of an operation at each phase, the cases of `raise`, what
is left of a wire unit, and that no operation but the sink's touches a stream. -/

namespace Sys2Proof.Machine

/-! ### The constants, for `simp` and before `omega` -/

@[simp] theorem dataLen_eq : dataLen = 128 := rfl
@[simp] theorem frameLen_eq : frameLen = 132 := rfl
@[simp] theorem maxAttempts_eq : maxAttempts = 10 := rfl
@[simp] theorem maxOuterAttempts_eq : maxOuterAttempts = 10 := rfl

/-! ### The answers of the environment -/

@[simp] theorem supply_cons {α : Type} (a : α) (l again : List α) : supply (a :: l) again = a :: l := rfl
@[simp] theorem supply_nil {α : Type} (again : List α) : supply [] again = again := rfl

/-- There is no answer exactly when none is listed and none is repeated. -/
theorem supply_eq_nil {α : Type} {l again : List α} : supply l again = [] ↔ l = [] ∧ again = [] := by
  cases l <;> simp

theorem readAnswers_of_cons {s : State} {a : ReadAnswer} {l : List ReadAnswer} (h : s.chanRd = a :: l) :
    s.readAnswers = a :: l := by simp [State.readAnswers, h]

theorem writeAnswers_of_cons {s : State} {a : WriteAnswer} {l : List WriteAnswer} (h : s.chanWrAns = a :: l) :
    s.writeAnswers = a :: l := by simp [State.writeAnswers, h]

theorem sourceAnswers_of_cons {s : State} {a : SrcAnswer} {l : List SrcAnswer} (h : s.src = a :: l) :
    s.sourceAnswers = a :: l := by simp [State.sourceAnswers, h]

theorem sinkAnswers_of_cons {s : State} {a : SinkAnswer} {l : List SinkAnswer} (h : s.sinkAns = a :: l) :
    s.sinkAnswers = a :: l := by simp [State.sinkAnswers, h]

/-! ### Raising an error -/

/-- Away from TRANSMIT's outer retry, `raise` only ends the command (R240). -/
theorem raise_eq_endCommand {e : CmdError} {s : State} (h : outerRetry e s = false) :
    raise e s = endCommand (.err e) .idle s := by
  simp [raise, h]

@[simp] theorem raise_contractViolation (c : ContractCause) (s : State) :
    raise (.contractViolation c) s = endCommand (.err (.contractViolation c)) .idle s :=
  raise_eq_endCommand (by simp [outerRetry, CmdError.interruptedChannel])

@[simp] theorem raise_protocolViolation (site : Site) (s : State) :
    raise (.protocolViolation site) s = endCommand (.err (.protocolViolation site)) .idle s :=
  raise_eq_endCommand (by simp [outerRetry, CmdError.interruptedChannel])

@[simp] theorem raise_peerAbort (site : Site) (s : State) :
    raise (.peerAbort site) s = endCommand (.err (.peerAbort site)) .idle s :=
  raise_eq_endCommand (by simp [outerRetry, CmdError.interruptedChannel])

@[simp] theorem raise_retryExhausted (scope : RetryScope) (s : State) :
    raise (.retryExhausted scope) s = endCommand (.err (.retryExhausted scope)) .idle s :=
  raise_eq_endCommand (by simp [outerRetry, CmdError.interruptedChannel])

@[simp] theorem raise_ioFailure_src (k : IoKind) (site : Site) (s : State) :
    raise (.ioFailure .src k site) s = endCommand (.err (.ioFailure .src k site)) .idle s :=
  raise_eq_endCommand (by simp [outerRetry, CmdError.interruptedChannel])

@[simp] theorem raise_ioFailure_sink (k : IoKind) (site : Site) (s : State) :
    raise (.ioFailure .sink k site) s = endCommand (.err (.ioFailure .sink k site)) .idle s :=
  raise_eq_endCommand (by simp [outerRetry, CmdError.interruptedChannel])

/-- An I/O failure outside a chunk of TRANSMIT, or of another kind than `Interrupted`, only ends the command (R203). -/
theorem raise_ioFailure_of_no_retry {p : Port} {k : IoKind} {site : Site} {s : State}
    (h : s.cmd ≠ .transmit ∨ s.len ≠ 128 ∨ k ≠ .interrupted) :
    raise (.ioFailure p k site) s = endCommand (.err (.ioFailure p k site)) .idle s := by
  apply raise_eq_endCommand
  rcases h with h | h | h
  · simp [outerRetry, h]
  · simp [outerRetry, h]
  · cases k with
    | interrupted => exact absurd rfl h
    | other c => cases p <;> simp [outerRetry, CmdError.interruptedChannel]

/-- The three things `raise` can do: end the command, give up the chunk, or issue it again (R203, R240). -/
theorem raise_cases (e : CmdError) (s : State) :
    (outerRetry e s = false ∧ raise e s = endCommand (.err e) .idle s) ∨
    (outerRetry e s = true ∧ s.outer = 10 ∧ raise e s = endCommand (.err (.retryExhausted .outer)) .idle s) ∨
    (outerRetry e s = true ∧ s.outer ≠ 10 ∧ raise e s = startTx { s with outer := s.outer + 1 }) := by
  cases hr : outerRetry e s with
  | false => exact .inl ⟨rfl, raise_eq_endCommand hr⟩
  | true =>
    by_cases ho : s.outer = 10
    · exact .inr (.inl ⟨rfl, ho, by simp [raise, hr, ho]⟩)
    · exact .inr (.inr ⟨rfl, ho, by simp [raise, hr, ho]⟩)

/-- When TRANSMIT re-issues: only in a chunk, only for an interrupted channel (R203, D15). -/
theorem outerRetry_iff (e : CmdError) (s : State) :
    outerRetry e s = true ↔ s.cmd = .transmit ∧ s.len = 128 ∧ e.interruptedChannel = true := by
  simp [outerRetry, and_assoc]

/-! ### Starting a packet command -/

/-- Where TX_PACKET goes first (R160). -/
theorem startTx_cases (s : State) :
    (s.handshakeDone = false ∧ startTx s = s.goto .txHandshake) ∨
    (s.handshakeDone = true ∧ s.len = 0 ∧ startTx s = s.goto .txEot1Send) ∨
    (s.handshakeDone = true ∧ s.len ≠ 0 ∧ startTx s = { s with attempt := 1, phase := .txSoh }) := by
  cases hh : s.handshakeDone with
  | false => exact .inl ⟨rfl, by simp [startTx, hh]⟩
  | true =>
    by_cases hl : s.len = 0
    · exact .inr (.inl ⟨rfl, hl, by simp [startTx, afterHandshake, hh, hl]⟩)
    · exact .inr (.inr ⟨rfl, hl, by simp [startTx, afterHandshake, sendFrame, hh, hl]⟩)

/-- Where RX_PACKET goes first (R130). -/
theorem startRx_cases (s : State) :
    (s.handshakeDone = false ∧ startRx s = s.goto .rxHsNak) ∨
    (s.handshakeDone = true ∧ startRx s = s.goto .rxHeader) := by
  cases hh : s.handshakeDone <;> simp [startRx, hh]

/-! ### A byte taken, by the phase that reads it -/

section TakeByte

variable {s : State} (b : Byte)

theorem takeByte_rxHeader (h : s.phase = .rxHeader) : takeByte b s = takeHeader b s := by
  simp [takeByte, h]

theorem takeByte_rxSeq (h : s.phase = .rxSeq) :
    takeByte b s = expectByte s.packetNumber b .rxSeq (s.goto .rxCmp) (s.goto .rxSeqCan) s := by
  simp [takeByte, h]

theorem takeByte_rxCmp (h : s.phase = .rxCmp) :
    takeByte b s =
      expectByte (complementOf s.packetNumber) b .rxCmp (s.goto (.rxData 0)) (s.goto .rxCmpCan) s := by
  simp [takeByte, h]

theorem takeByte_rxData {i : Fin dataLen} (h : s.phase = .rxData i) : takeByte b s = takeData i b s := by
  simp [takeByte, h]

theorem takeByte_rxCksum (h : s.phase = .rxCksum) : takeByte b s = takeChecksum b s := by
  simp [takeByte, h]

theorem takeByte_rxEot2 (h : s.phase = .rxEot2) :
    takeByte b s = expectByte eotByte b .rxEot2 (s.goto .rxEotAck)
      (violate s.config.emitCanRxEot2 .rxEot2Can .rxEot2 s) s := by
  simp [takeByte, h]

theorem takeByte_txHandshake (h : s.phase = .txHandshake) :
    takeByte b s = expectByte nakByte b .txHandshake (afterHandshake { s with handshakeDone := true })
      (violate s.config.emitCanTxHandshake .txHandshakeCan .txHandshake s) s := by
  simp [takeByte, h]

theorem takeByte_txEot1 (h : s.phase = .txEot1) :
    takeByte b s = expectByte nakByte b .txEot1 (s.goto .txEot2Send)
      (violate s.config.emitCanTxEot1 .txEot1Can .txEot1 s) s := by
  simp [takeByte, h]

theorem takeByte_txEot2 (h : s.phase = .txEot2) :
    takeByte b s = expectByte ackByte b .txEot2 (transferEnded s)
      (violate s.config.emitCanTxEot2 .txEot2Can .txEot2 s) s := by
  simp [takeByte, h]

theorem takeByte_txReply (h : s.phase = .txReply) : takeByte b s = takeReply b s := by
  simp [takeByte, h]

end TakeByte

/-- A byte at an expected-byte site (R86, R88), as one of three cases. -/
theorem expectByte_cases (e b : Byte) (site : Site) (m v s : State) :
    (b = e ∧ expectByte e b site m v s = m) ∨
    (b ≠ e ∧ b = canByte ∧ expectByte e b site m v s = endCommand (.err (.peerAbort site)) .idle s) ∨
    (b ≠ e ∧ b ≠ canByte ∧ expectByte e b site m v s = v) := by
  by_cases h1 : b = e
  · exact .inl ⟨h1, by simp [expectByte, h1]⟩
  · by_cases h2 : b = canByte
    · exact .inr (.inl ⟨h1, h2, by simp only [expectByte, if_neg h1, if_pos h2, raise_peerAbort]⟩)
    · exact .inr (.inr ⟨h1, h2, by simp only [expectByte, if_neg h1, if_neg h2]⟩)

/-- A failed read away from the data sites is an `IoFailure` of that site (R225). -/
theorem readFailed_of_site {s : State} {site : Site} (k : IoKind) (h : s.phase.site = some site) (hd : site ≠ .rxData) :
    readFailed k s = raise (.ioFailure .chanRd k site) s := by
  unfold readFailed
  cases hp : s.phase <;> simp_all [Phase.site]

/-- A failed read of a data byte stands for 0x18 (R53, R138). -/
theorem readFailed_rxData {s : State} {i : Fin dataLen} (k : IoKind) (h : s.phase = .rxData i) :
    readFailed k s = takeData i canByte s := by
  simp [readFailed, h]

/-- A failed write is an `IoFailure` of its site (R54, R225). -/
theorem writeFailed_of_site {s : State} {site : Site} (k : IoKind) (h : s.phase.site = some site) :
    writeFailed k s = raise (.ioFailure .chanWr k site) s := by
  simp [writeFailed, h]

/-! ### Wire units -/

@[simp] theorem takeUnit_nil (s : State) : takeUnit [] s = s := rfl

/-- At a read site the first byte of the unit is taken. -/
theorem takeUnit_cons_of_read {s : State} (b : Byte) (bs : List Byte) (h : s.atChanRead = true) :
    takeUnit (b :: bs) s = takeUnit bs (takeByte b s) := by
  simp [takeUnit, h]

/-- Elsewhere the unit stays at the head of the channel. -/
theorem takeUnit_cons_of_wait {s : State} (b : Byte) (bs : List Byte) (h : s.atChanRead = false) :
    takeUnit (b :: bs) s = { s with chanRd := (b :: bs).map .byte ++ s.chanRd } := by
  simp [takeUnit, h]

/-- One byte decodes to a symbol only as R81 says, and that symbol's meaning at a read site is to take the byte. -/
theorem exec_symbol_at_read_site {b : Byte} {i : Instr} {s : State}
    (hd : decode (.wire [b]) = .ok i) (hr : s.atChanRead = true) : exec i s = .next (takeByte b s) := by
  have hb : decodeSymbol b = .ok i := hd
  have hu : takeUnit [b] s = takeByte b s := by simp [takeUnit, hr]
  unfold decodeSymbol at hb
  split at hb
  · next h => cases hb; rw [← hu, h]; rfl
  split at hb
  · next h => cases hb; rw [← hu, h]; rfl
  split at hb
  · next h => cases hb; rw [← hu, h]; rfl
  split at hb
  · next h => cases hb; rw [← hu, h]; rfl
  split at hb
  · next h => cases hb; rw [← hu, h]; rfl
  · cases hb

/-- A read step whose answer is a byte takes that byte, symbol or not. -/
theorem readStep_byte {s : State} {b : Byte} {rest : List ReadAnswer} (hr : s.atChanRead = true)
    (hc : s.readAnswers = .byte b :: rest) : readStep s = .next (takeByte b { s with chanRd := rest }) := by
  unfold readStep
  rw [hc]
  dsimp only
  split
  · next i hi => exact exec_symbol_at_read_site hi (by simpa [State.atChanRead] using hr)
  · rfl

/-! ### What the operations leave alone -/

/-- Nothing but the registers of the engine differs: every stream, the host's list, the reset pin and the parameters are the same. -/
def SameStreams (s t : State) : Prop :=
  t.config = s.config ∧ t.chanRd = s.chanRd ∧ t.chanWrAns = s.chanWrAns ∧ t.chanWr = s.chanWr ∧ t.src = s.src ∧
    t.sinkAns = s.sinkAns ∧ t.sink = s.sink ∧ t.again = s.again ∧ t.host = s.host ∧ t.resetPin = s.resetPin

theorem SameStreams.rfl' (s : State) : SameStreams s s := by simp [SameStreams]

theorem SameStreams.trans {s t u : State} (h : SameStreams s t) (k : SameStreams t u) : SameStreams s u := by
  unfold SameStreams at *
  simp_all

theorem goto_sameStreams (p : Phase) (s : State) : SameStreams s (s.goto p) := by simp [SameStreams]

theorem endCommand_sameStreams (r : CmdResult) (p : Phase) (s : State) : SameStreams s (endCommand r p s) := by
  simp [SameStreams]

theorem freshEngine_sameStreams (s : State) : SameStreams s (freshEngine s) := by simp [SameStreams]

theorem startTx_sameStreams (s : State) : SameStreams s (startTx s) := by
  rcases startTx_cases s with ⟨-, h⟩ | ⟨-, -, h⟩ | ⟨-, -, h⟩ <;> rw [h] <;> simp [SameStreams]

theorem startRx_sameStreams (s : State) : SameStreams s (startRx s) := by
  rcases startRx_cases s with ⟨-, h⟩ | ⟨-, h⟩ <;> rw [h] <;> simp [SameStreams]

theorem raise_sameStreams (e : CmdError) (s : State) : SameStreams s (raise e s) := by
  rcases raise_cases e s with ⟨-, h⟩ | ⟨-, -, h⟩ | ⟨-, -, h⟩ <;> rw [h]
  · exact endCommand_sameStreams ..
  · exact endCommand_sameStreams ..
  · exact SameStreams.trans (by simp [SameStreams]) (startTx_sameStreams _)

theorem packetReceived_sameStreams (s : State) : SameStreams s (packetReceived s) := by
  unfold packetReceived
  split <;> simp [SameStreams]

theorem packetSent_sameStreams (s : State) : SameStreams s (packetSent s) := by
  unfold packetSent
  split <;> simp [SameStreams]

theorem transferEnded_sameStreams (s : State) : SameStreams s (transferEnded s) := by
  unfold transferEnded
  split <;> simp [SameStreams]

theorem chunkLoaded_sameStreams (s : State) : SameStreams s (chunkLoaded s) := by
  unfold chunkLoaded
  split <;> exact SameStreams.trans (by simp [SameStreams]) (startTx_sameStreams _)

theorem violate_sameStreams (emit : Bool) (p : Phase) (site : Site) (s : State) : SameStreams s (violate emit p site s) := by
  cases emit
  · simpa [violate] using endCommand_sameStreams _ _ s
  · simpa [violate] using goto_sameStreams p s

theorem expectByte_sameStreams (e b : Byte) (site : Site) {m v s : State} (hm : SameStreams s m) (hv : SameStreams s v) :
    SameStreams s (expectByte e b site m v s) := by
  rcases expectByte_cases e b site m v s with ⟨-, h⟩ | ⟨-, -, h⟩ | ⟨-, -, h⟩ <;> rw [h]
  · exact hm
  · exact endCommand_sameStreams ..
  · exact hv

theorem takeData_sameStreams (i : Fin dataLen) (b : Byte) (s : State) : SameStreams s (takeData i b s) := by
  simp [takeData, SameStreams]

theorem takeReply_sameStreams (b : Byte) (s : State) : SameStreams s (takeReply b s) := by
  unfold takeReply
  split
  · exact SameStreams.trans (by simp [SameStreams]) (packetSent_sameStreams _)
  split
  · split
    · exact raise_sameStreams ..
    · simp [SameStreams]
  split
  · exact raise_sameStreams ..
  · exact violate_sameStreams ..

/-- Taking a byte touches no stream (the step has already consumed it). -/
theorem takeByte_sameStreams (b : Byte) (s : State) : SameStreams s (takeByte b s) := by
  unfold takeByte
  split
  · unfold takeHeader
    split
    · exact goto_sameStreams ..
    split
    · exact goto_sameStreams ..
    split <;> exact raise_sameStreams ..
  · exact expectByte_sameStreams _ _ _ (goto_sameStreams ..) (goto_sameStreams ..)
  · exact expectByte_sameStreams _ _ _ (goto_sameStreams ..) (goto_sameStreams ..)
  · exact takeData_sameStreams ..
  · simp [takeChecksum, SameStreams]
  · exact expectByte_sameStreams _ _ _ (goto_sameStreams ..) (violate_sameStreams ..)
  · refine expectByte_sameStreams _ _ _ ?_ (violate_sameStreams ..)
    unfold afterHandshake
    split <;> simp [SameStreams]
  · exact expectByte_sameStreams _ _ _ (goto_sameStreams ..) (violate_sameStreams ..)
  · exact expectByte_sameStreams _ _ _ (transferEnded_sameStreams _) (violate_sameStreams ..)
  · exact takeReply_sameStreams ..
  · exact SameStreams.rfl' s

/-- What follows an accepted write touches no stream (the step has already appended the byte). -/
theorem byteWritten_sameStreams (s : State) : SameStreams s (byteWritten s) := by
  unfold byteWritten
  split <;> first
    | exact goto_sameStreams ..
    | exact raise_sameStreams ..
    | exact transferEnded_sameStreams _
    | exact SameStreams.rfl' s
    | exact SameStreams.trans (by simp [SameStreams]) (packetReceived_sameStreams _)
    | (split <;> simp [SameStreams])

theorem readFailed_sameStreams (k : IoKind) (s : State) : SameStreams s (readFailed k s) := by
  unfold readFailed
  split
  · exact takeData_sameStreams ..
  · split
    · exact raise_sameStreams ..
    · exact SameStreams.rfl' s

theorem writeFailed_sameStreams (k : IoKind) (s : State) : SameStreams s (writeFailed k s) := by
  unfold writeFailed
  split
  · exact raise_sameStreams ..
  · exact SameStreams.rfl' s

theorem takeSourceByte_sameStreams (b : Byte) (s : State) : SameStreams s (takeSourceByte b s) := by
  unfold takeSourceByte
  dsimp only
  split
  · simp [SameStreams]
  · exact SameStreams.trans (by simp [SameStreams]) (chunkLoaded_sameStreams _)

/-! ### The packet buffer and the checksum -/

theorem sum8_nil : sum8 [] = 0 := rfl

/-- The accumulator, from any start. -/
theorem foldl_add_start (d : List Byte) (a : Byte) : d.foldl (fun acc b => acc + b) a = a + sum8 d := by
  induction d generalizing a with
  | nil => simp [sum8]
  | cons b d ih =>
    simp only [sum8, List.foldl_cons] at *
    rw [ih, ih (0 + b)]
    simp [add_assoc]

theorem sum8_cons (b : Byte) (d : List Byte) : sum8 (b :: d) = b + sum8 d := by
  have h := foldl_add_start d (0 + b)
  simpa [sum8] using h

theorem sum8_append (d e : List Byte) : sum8 (d ++ e) = sum8 d + sum8 e := by
  induction d with
  | nil => simp [sum8_nil]
  | cons b d ih => simp [sum8_cons, ih, add_assoc]

theorem length_frameBytes (seq cmp ck : Byte) (d : List Byte) : (frameBytes seq cmp d ck).length = d.length + 4 := by
  simp [frameBytes]

/-- What the padding leaves in `x` (R200). -/
theorem padFrom_toList (n : Nat) (x : Buffer) :
    (padFrom n x).toList = x.toList.take n ++ List.replicate (dataLen - n) padByte := by
  simp [padFrom]

theorem writtenFrom_toList (n : Nat) (w : Vector Bool dataLen) :
    (writtenFrom n w).toList = w.toList.take n ++ List.replicate (dataLen - n) true := by
  simp [writtenFrom]

/-- If the entries below `n` were written, all are written after the padding (R200). -/
theorem writtenFrom_get {n : Nat} {w : Vector Bool dataLen} (h : ∀ i : Fin dataLen, i.val < n → w.get i = true) (i : Fin dataLen) :
    (writtenFrom n w).get i = true := by
  have hi := i.isLt
  simp only [writtenFrom, Vector.get_eq_getElem, Vector.getElem_mk, List.getElem_toArray]
  by_cases hn : i.val < n
  · rw [List.getElem_append_left (by simp; omega)]
    simpa [Vector.get_eq_getElem] using h i hn
  · rw [List.getElem_append_right (by simp; omega)]
    simp

end Sys2Proof.Machine
end

