-- ==== Sys2Proof/Laws/PerInstr.lean ====
section
/-! SUPPORT. Statements made of every instruction as syntax, one lemma per constructor. -/

/-- The shape of an instruction's words: a wire unit of 1 or 132 bytes (R80), a command code of at most 4 (R92), or none, which
only the codec functions have (R94). -/
def Sys2Proof.Laws.Encodes.Statement (i : Sys2Proof.Instr) : Prop :=
  i.WellFormed →
    (∃ bytes, Sys2Proof.encode i = some (.wire bytes) ∧ (bytes.length = 1 ∨ bytes.length = 132)) ∨
    (∃ op arg, Sys2Proof.encode i = some (.cmd op arg) ∧ op.toNat ≤ 4) ∨
    Sys2Proof.encode i = none

namespace Sys2Proof.Laws.Encodes

open Sys2Proof

theorem soh : Statement .soh := fun _ => .inl ⟨_, rfl, .inl rfl⟩
theorem eot : Statement .eot := fun _ => .inl ⟨_, rfl, .inl rfl⟩
theorem ack : Statement .ack := fun _ => .inl ⟨_, rfl, .inl rfl⟩
theorem nak : Statement .nak := fun _ => .inl ⟨_, rfl, .inl rfl⟩
theorem can : Statement .can := fun _ => .inl ⟨_, rfl, .inl rfl⟩

theorem data (seq cmp : Byte) (d : List Byte) (ck : Byte) : Statement (.data seq cmp d ck) := by
  intro h
  have hl : d.length = 128 := by simpa [Instr.WellFormed, Instr.wellFormed] using h
  exact .inl ⟨_, rfl, .inr (by simp [Machine.frameBytes, hl])⟩

theorem new : Statement .new := fun _ => .inr (.inl ⟨_, _, rfl, by decide⟩)
theorem rxPacket (cap : Nat) : Statement (.rxPacket cap) := fun _ => .inr (.inl ⟨_, _, rfl, by decide⟩)
theorem txPacket (len : Nat) : Statement (.txPacket len) := fun _ => .inr (.inl ⟨_, _, rfl, by decide⟩)
theorem receive : Statement .receive := fun _ => .inr (.inl ⟨_, _, rfl, by decide⟩)
theorem transmit : Statement .transmit := fun _ => .inr (.inl ⟨_, _, rfl, by decide⟩)
theorem checksum (d : List Byte) : Statement (.checksum d) := fun _ => .inr (.inr rfl)
theorem complement (n : Byte) : Statement (.complement n) := fun _ => .inr (.inr rfl)
theorem frame (n : Byte) (d : List Byte) : Statement (.frame n d) := fun _ => .inr (.inr rfl)
theorem deframe (n : Byte) (f : List Byte) : Statement (.deframe n f) := fun _ => .inr (.inr rfl)

end Sys2Proof.Laws.Encodes
end

