-- ==== Sys2Proof/Laws/Step.lean ====
section
/-! SUPPORT. What a step can do, said once, and how runs compose. -/

namespace Sys2Proof.Machine

/-- With the reset input asserted (R262). -/
theorem step_of_reset {s : State} (h : s.resetPin = true) : step s = .next (takeReset s) := by simp [step, h]

/-- Without it. -/
theorem step_of_running {s : State} (h : s.resetPin = false) : step s = portStep s := by simp [step, h]

theorem step_at_host {s : State} (h : s.resetPin = false) (hp : s.phase.port = none) : step s = hostStep s := by
  simp [step, h, portStep, hp]

theorem step_at_read {s : State} (h : s.resetPin = false) (hp : s.phase.port = some .chanRd) : step s = readStep s := by
  simp [step, h, portStep, hp]

theorem step_at_write {s : State} (h : s.resetPin = false) (hp : s.phase.port = some .chanWr) : step s = writeStep s := by
  simp [step, h, portStep, hp]

theorem step_at_source {s : State} (h : s.resetPin = false) (hp : s.phase.port = some .src) : step s = sourceStep s := by
  simp [step, h, portStep, hp]

theorem step_at_sink {s : State} (h : s.resetPin = false) (hp : s.phase.port = some .sink) : step s = sinkStep s := by
  simp [step, h, portStep, hp]

/-- A read site's step on a byte. -/
theorem step_reads_byte {s : State} {b : Byte} {rest : List ReadAnswer} (h : s.resetPin = false)
    (hp : s.phase.port = some .chanRd) (hc : s.readAnswers = .byte b :: rest) :
    step s = .next (takeByte b { s with chanRd := rest }) := by
  rw [step_at_read h hp]
  exact readStep_byte (by simp [State.atChanRead, hp]) hc

/-- A write site's step on an accepted write. -/
theorem step_writes_byte {s : State} {rest : List WriteAnswer} (h : s.resetPin = false)
    (hp : s.phase.port = some .chanWr) (hc : s.writeAnswers = .accepted :: rest) :
    step s = .next (byteWritten { s with chanWrAns := rest, chanWr := s.chanWr ++ s.offeredByte.toList }) := by
  rw [step_at_write h hp, writeStep, hc]

/-- Every next state of a step comes about in one of these ways, guards included: later proofs take these apart and unfold no
step. -/
theorem step_cases {s t : State} (h : step s = .next t) :
    (s.resetPin = true ∧ t = takeReset s) ∨
    (s.resetPin = false ∧ s.phase.port = none ∧ ∃ i v rest, s.host = .writeX i v :: rest ∧
      t = { s with host := rest }.setX i v) ∨
    (s.resetPin = false ∧ s.phase.port = none ∧ ∃ op arg rest i, s.host = .command op arg :: rest ∧
      decode (.cmd op arg) = .ok i ∧ exec i { s with host := rest } = .next t) ∨
    (s.resetPin = false ∧ s.phase.port = some .chanRd ∧ ∃ b rest, s.readAnswers = .byte b :: rest ∧
      t = takeByte b { s with chanRd := rest }) ∨
    (s.resetPin = false ∧ s.phase.port = some .chanRd ∧ ∃ k rest, s.readAnswers = .fail k :: rest ∧
      t = readFailed k { s with chanRd := rest }) ∨
    (s.resetPin = false ∧ s.phase.port = some .chanWr ∧ ∃ rest, s.writeAnswers = .accepted :: rest ∧
      t = byteWritten { s with chanWrAns := rest, chanWr := s.chanWr ++ s.offeredByte.toList }) ∨
    (s.resetPin = false ∧ s.phase.port = some .chanWr ∧ ∃ k wentOut rest, s.writeAnswers = .fail k wentOut :: rest ∧
      t = writeFailed k { s with
        chanWrAns := rest
        chanWr := if wentOut then s.chanWr ++ s.offeredByte.toList else s.chanWr }) ∨
    (s.resetPin = false ∧ s.phase.port = some .src ∧ s.sourceAnswers = [] ∧ t = chunkLoaded s) ∨
    (s.resetPin = false ∧ s.phase.port = some .src ∧ ∃ b rest, s.sourceAnswers = .byte b :: rest ∧
      t = takeSourceByte b { s with src := rest }) ∨
    (s.resetPin = false ∧ s.phase.port = some .src ∧ ∃ k rest, s.sourceAnswers = .fail k :: rest ∧
      t = raise (.ioFailure .src k .trSrc) { s with src := rest }) ∨
    (s.resetPin = false ∧ s.phase.port = some .sink ∧ ∃ rest, s.sinkAnswers = .accepted :: rest ∧
      t = sinkWritten { s with sinkAns := rest }) ∨
    (s.resetPin = false ∧ s.phase.port = some .sink ∧ ∃ k rest, s.sinkAnswers = .fail k :: rest ∧
      t = raise (.ioFailure .sink k .rcSink) { s with sinkAns := rest }) := by
  by_cases hr' : s.resetPin = true
  · rw [step_of_reset hr'] at h
    cases h
    exact .inl ⟨hr', rfl⟩
  · have hr : s.resetPin = false := by simpa using hr'
    refine .inr ?_
    cases hp : s.phase.port with
    | none =>
      rw [step_at_host hr hp] at h
      unfold hostStep at h
      split at h
      · cases h
      · next i v rest hh =>
        unfold hostWriteX at h
        split at h
        · cases h
        · cases h
          exact .inl ⟨hr, rfl, i, v, rest, hh, rfl⟩
      · next op arg rest hh =>
        split at h
        · next i hi => exact .inr (.inl ⟨hr, rfl, op, arg, rest, i, hh, hi, h⟩)
        · cases h
    | some p =>
      refine .inr (.inr ?_)
      cases p with
      | chanRd =>
        have ha : s.atChanRead = true := by simp [State.atChanRead, hp]
        rw [step_at_read hr hp] at h
        cases hc : s.readAnswers with
        | nil => simp [readStep, hc] at h
        | cons a rest =>
          cases a with
          | byte b =>
            rw [readStep_byte ha hc] at h
            cases h
            exact .inl ⟨hr, rfl, b, rest, rfl, rfl⟩
          | fail k =>
            simp only [readStep, hc] at h
            cases h
            exact .inr (.inl ⟨hr, rfl, k, rest, rfl, rfl⟩)
      | chanWr =>
        rw [step_at_write hr hp, writeStep] at h
        cases hc : s.writeAnswers with
        | nil => simp [hc] at h
        | cons a rest =>
          simp only [hc] at h
          cases a with
          | accepted =>
            cases h
            exact .inr (.inr (.inl ⟨hr, rfl, rest, rfl, rfl⟩))
          | fail k wentOut =>
            cases h
            exact .inr (.inr (.inr (.inl ⟨hr, rfl, k, wentOut, rest, rfl, rfl⟩)))
      | src =>
        rw [step_at_source hr hp, sourceStep] at h
        refine .inr (.inr (.inr (.inr ?_)))
        cases hc : s.sourceAnswers with
        | nil =>
          simp only [hc] at h
          cases h
          exact .inl ⟨hr, rfl, rfl, rfl⟩
        | cons a rest =>
          simp only [hc] at h
          cases a with
          | byte b =>
            cases h
            exact .inr (.inl ⟨hr, rfl, b, rest, rfl, rfl⟩)
          | fail k =>
            cases h
            exact .inr (.inr (.inl ⟨hr, rfl, k, rest, rfl, rfl⟩))
      | sink =>
        rw [step_at_sink hr hp, sinkStep] at h
        refine .inr (.inr (.inr (.inr (.inr (.inr (.inr ?_))))))
        cases hc : s.sinkAnswers with
        | nil => simp [hc] at h
        | cons a rest =>
          simp only [hc] at h
          cases a with
          | accepted =>
            cases h
            exact .inl ⟨hr, rfl, rest, rfl, rfl⟩
          | fail k =>
            cases h
            exact .inr ⟨hr, rfl, k, rest, rfl, rfl⟩

/-- What an accepted command does, by the command (R190, R130, R160, R195, R200). -/
theorem exec_command_cases {op : BitVec 3} {arg : Nat} {i : Instr} {s t : State}
    (hd : decode (.cmd op arg) = .ok i) (h : exec i s = .next t) :
    (op = 0 ∧ i = .new ∧ t = freshEngine s) ∨
    (op = 1 ∧ i = .rxPacket arg ∧ refusalRx s = none ∧
      t = (if rxBufferTooSmall arg then
            endCommand (.err (.contractViolation .rxBufferTooSmall)) .idle
              { s with cmd := .rxPacket, len := arg, role := some .receiver }
           else startRx { s with cmd := .rxPacket, len := arg, role := some .receiver })) ∨
    (op = 2 ∧ i = .txPacket arg ∧ refusalTx arg s = none ∧
      t = (if txBadLength arg then
            endCommand (.err (.contractViolation .txBadLength)) .idle
              { s with cmd := .txPacket, len := arg, role := some .sender }
           else startTx { s with cmd := .txPacket, len := arg, role := some .sender })) ∨
    (op = 3 ∧ i = .receive ∧
      t = startRx { freshEngine s with cmd := .receive, role := some .receiver, len := 128, total := 0 }) ∨
    (op = 4 ∧ i = .transmit ∧
      t = { freshEngine s with cmd := .transmit, role := some .sender, total := 0, n := 0, phase := .trSrc }) := by
  have hd' : decodeCmd op arg = .ok i := hd
  unfold decodeCmd at hd'
  split at hd'
  · next h0 =>
    cases hd'
    refine .inl ⟨h0, rfl, ?_⟩
    simp only [exec, execNew] at h
    split at h
    · cases h
    · cases h
      rfl
  refine .inr ?_
  split at hd'
  · next h1 =>
    cases hd'
    refine .inl ⟨h1, rfl, ?_⟩
    simp only [exec, execRxPacket] at h
    split at h
    · cases h
    · next hn =>
      cases h
      exact ⟨hn, by simp⟩
  refine .inr ?_
  split at hd'
  · next h2 =>
    cases hd'
    refine .inl ⟨h2, rfl, ?_⟩
    simp only [exec, execTxPacket] at h
    split at h
    · cases h
    · next hn =>
      cases h
      exact ⟨hn, by simp⟩
  refine .inr ?_
  split at hd'
  · next h3 =>
    cases hd'
    refine .inl ⟨h3, rfl, ?_⟩
    simp only [exec, execReceive] at h
    split at h
    · cases h
    · cases h
      rfl
  refine .inr ?_
  split at hd'
  · next h4 =>
    cases hd'
    refine ⟨h4, rfl, ?_⟩
    simp only [exec, execTransmit] at h
    split at h
    · cases h
    · cases h
      rfl
  · cases hd'

/-- A packet command is admitted only while Idle, on an engine that has not served the other role (R147, R174). -/
theorem refusalPacket_eq_none {r : Role} {s : State} :
    refusalPacket r s = none ↔ s.phase = .idle ∧ (s.role = none ∨ s.role = some r) := by
  unfold refusalPacket State.busy State.terminatedFlag
  cases s.phase <;> (simp; try tauto)

theorem refusalTx_eq_none {len : Nat} {s : State} :
    refusalTx len s = none ↔
      s.phase = .idle ∧ (s.role = none ∨ s.role = some .sender) ∧ (len = 128 → s.bufferWritten = true) := by
  unfold refusalTx
  cases h : refusalPacket .sender s with
  | some r =>
    have : ¬ (s.phase = .idle ∧ (s.role = none ∨ s.role = some .sender)) := by
      rw [← refusalPacket_eq_none, h]
      simp
    simp
    tauto
  | none =>
    rw [refusalPacket_eq_none] at h
    cases s.bufferWritten <;> simp [h]

/-- `bufferWritten` entry by entry (R174). -/
theorem bufferWritten_iff (s : State) : s.bufferWritten = true ↔ ∀ i : Fin dataLen, s.xWritten.get i = true := by
  simp only [State.bufferWritten, List.all_eq_true, id, Vector.get_eq_getElem]
  constructor
  · intro h i
    exact h _ (by simp)
  · intro h b hb
    obtain ⟨i, hi, rfl⟩ := List.getElem_of_mem hb
    simpa using h ⟨i, by simpa using hi⟩

/-! ### Runs -/

@[simp] theorem runSteps_zero (s : State) : runSteps 0 s = .next s := rfl

/-- A run begins with its first step. -/
theorem runSteps_succ (k : Nat) (s : State) :
    runSteps (k + 1) s = (match step s with
      | .next t => runSteps k t
      | .fault r => .fault r
      | .refused r => .refused r) := by
  have hcore : core.step s = step s := rfl
  simp only [runSteps, Host.Core.run]
  generalize ho : core.step s = o
  rw [hcore] at ho
  rw [ho]
  cases o <;> rfl

/-- The same, where the first step is known. -/
theorem runSteps_succ_of_next {k : Nat} {s t : State} (h : step s = .next t) : runSteps (k + 1) s = runSteps k t := by
  rw [runSteps_succ, h]

/-- Runs compose. -/
theorem runSteps_add_of_next {j k : Nat} {s t : State} (h : runSteps j s = .next t) :
    runSteps (j + k) s = runSteps k t := by
  induction j generalizing s with
  | zero =>
    cases h
    simp
  | succ j ih =>
    rw [runSteps_succ] at h
    rw [Nat.succ_add, runSteps_succ]
    cases h1 : step s with
    | next u =>
      rw [h1] at h
      exact ih h
    | fault r =>
      rw [h1] at h
      cases h
    | refused r =>
      rw [h1] at h
      cases h

end Sys2Proof.Machine
end

