-- ==== Sys2Proof/Tests/Slice0.lean ====
section
/-! SUPPORT. The model's own tests: the operand checks refuse, words written out from the spec decode, one step agrees with the
spec's vectors (`spec/95_test_vectors.md`, cited by V, P and row), and every obligation with hypotheses has a state that meets them. -/

set_option maxRecDepth 8000

namespace Sys2Proof.Tests

open Sys2Proof Sys2Proof.Machine

/-! ### Builders -/

/-- `k` copies of a byte (R9). -/
def rep (k : Nat) (b : Byte) : List Byte := List.replicate k b

/-- The bytes `from, from + 1, …`, `k` of them. -/
def upFrom : Nat → Byte → List Byte
  | 0, _ => []
  | k + 1, b => b :: upFrom k (b + 1)

/-- The reset state at another phase. -/
def atPhase (p : Phase) : State := { State.reset with phase := p }

/-- A receiver's engine in the middle of RX_PACKET. -/
def rxAt (p : Phase) : State :=
  { State.reset with phase := p, cmd := .rxPacket, len := 128, role := some .receiver, handshakeDone := true }

/-- A sender's engine in the middle of `TX_PACKET(len)`, with all of `x` written. -/
def txAt (p : Phase) (len : Nat) : State :=
  { State.reset with
    phase := p, cmd := .txPacket, len := len, role := some .sender, handshakeDone := true, attempt := 1
    xWritten := Vector.replicate 128 true }

/-- The same engine with a byte next on `CHAN_RD`. -/
def reads (b : Byte) (s : State) : State := { s with chanRd := [.byte b] }

/-- The same engine with the next channel write accepted. -/
def writes (s : State) : State := { s with chanWrAns := [.accepted] }

/-- The same engine with the next channel write failing; the byte went out. -/
def failsWrite (k : IoKind) (s : State) : State := { s with chanWrAns := [.fail k true] }

/-- The same engine with a command next. -/
def given (op : BitVec 3) (arg : Nat) (s : State) : State := { s with host := [.command op arg] }

/-- A value of the next state, if there is one. -/
def after {α : Type} (o : Host.Outcome State Fault Refusal) (f : State → α) : Option α :=
  match o with
  | .next s => some (f s)
  | .fault _ => none
  | .refused _ => none

/-! ### Operand checks: an ill-formed term for each -/

theorem test_data_127_ill_formed : (Instr.data 1 0xFE (rep 127 0) 0).wellFormed = false := by decide
theorem test_data_129_ill_formed : (Instr.data 1 0xFE (rep 129 0) 0).wellFormed = false := by decide
theorem test_checksum_127_ill_formed : (Instr.checksum (rep 127 0)).wellFormed = false := by decide
theorem test_frame_129_ill_formed : (Instr.frame 1 (rep 129 0)).wellFormed = false := by decide
theorem test_deframe_131_ill_formed : (Instr.deframe 1 (rep 131 0)).wellFormed = false := by decide
theorem test_lengths_well_formed :
    (Instr.data 1 0xFE (rep 128 0) 0).wellFormed = true ∧ (Instr.checksum (rep 128 0)).wellFormed = true ∧
    (Instr.frame 1 (rep 128 0)).wellFormed = true ∧ (Instr.deframe 1 (rep 132 0)).wellFormed = true := by decide

/-- `exec` refuses what the check refuses (log 29). -/
theorem test_ill_formed_refused :
    exec (.checksum []) State.reset = .refused .illFormed ∧ exec (.frame 1 []) State.reset = .refused .illFormed ∧
    exec (.deframe 1 []) State.reset = .refused .illFormed ∧ exec (.data 1 0xFE [] 0) State.reset = .refused .illFormed :=
  ⟨rfl, rfl, rfl, rfl⟩

/-! ### Decoding: words written bit by bit from R81, R82 and R92 -/

theorem test_decode_soh : decode (.wire [0b00000001]) = .ok .soh := rfl
theorem test_decode_eot : decode (.wire [0b00000100]) = .ok .eot := rfl
theorem test_decode_ack : decode (.wire [0b00000110]) = .ok .ack := rfl
theorem test_decode_nak : decode (.wire [0b00010101]) = .ok .nak := rfl
theorem test_decode_can : decode (.wire [0b00011000]) = .ok .can := rfl
theorem test_decode_new : decode (.cmd 0b000 0) = .ok .new := rfl
theorem test_decode_rxPacket : decode (.cmd 0b001 200) = .ok (.rxPacket 200) := rfl
theorem test_decode_txPacket : decode (.cmd 0b010 128) = .ok (.txPacket 128) := rfl
theorem test_decode_receive : decode (.cmd 0b011 0) = .ok .receive := rfl
theorem test_decode_transmit : decode (.cmd 0b100 9) = .ok .transmit := rfl

/-- V3 row 7: `01 E7 18 <128 x 55> 80`. -/
theorem test_decode_frame :
    decode (.wire ([0x01, 0xE7, 0x18] ++ rep 128 0x55 ++ [0x80])) = .ok (.data 0xE7 0x18 (rep 128 0x55) 0x80) := by rfl

/-- R93: the reserved codes. -/
theorem test_decode_reserved :
    decode (.cmd 0b101 0) = .error .reservedOp ∧ decode (.cmd 0b110 0) = .error .reservedOp ∧
    decode (.cmd 0b111 0) = .error .reservedOp := ⟨rfl, rfl, rfl⟩

/-- R80, R81: neighbours of the symbols, other lengths, and a frame that does not begin with SOH (V4 row 2). -/
theorem test_decode_rejects :
    decode (.wire [0x00]) = .error .notASymbol ∧ decode (.wire [0x05]) = .error .notASymbol ∧
    decode (.wire [0x16]) = .error .notASymbol ∧ decode (.wire [0x01, 0x01]) = .error .noSuchLength ∧
    decode (.wire []) = .error .noSuchLength ∧ decode (.wire (rep 131 0x01)) = .error .noSuchLength ∧
    decode (.wire ([0x02, 0x01, 0xFE] ++ rep 128 0x00 ++ [0x00])) = .error .noStartByte :=
  ⟨rfl, rfl, rfl, rfl, rfl, rfl, rfl⟩

/-- The table's own words: `match` of each row, 8 bits or 3 (R103). -/
theorem test_table_words :
    decodeTableWord 8 0x01 = some .soh ∧ decodeTableWord 8 0x04 = some .eot ∧ decodeTableWord 8 0x06 = some .ack ∧
    decodeTableWord 8 0x15 = some .nak ∧ decodeTableWord 8 0x18 = some .can ∧
    decodeTableWord 3 0 = some .new ∧ decodeTableWord 3 1 = some (.rxPacket 0) ∧ decodeTableWord 3 2 = some (.txPacket 0) ∧
    decodeTableWord 3 3 = some .receive ∧ decodeTableWord 3 4 = some .transmit ∧ decodeTableWord 3 5 = none := by decide

/-- A frame's first byte is the low byte of the table's number: `01 02 FD 00 …`. -/
theorem test_table_frame : decodeTableWord 1056 0xFD0201 = some (.data 0x02 0xFD (rep 128 0) 0) := by decide

/-- The very next step runs the word (log 24). -/
theorem test_fetch_words :
    after (step (State.reset.withFetchWord 3 3)) (·.phase) = some .rxHsNak ∧
    after (step (State.reset.withFetchWord 8 0x01)) (·.phase) = some .rxSeq ∧
    after (step (State.reset.withFetchWord 8 0x06)) (·.result) = some (.ok 128) := by decide

/-! ### One step of each instruction -/

/-- V1 row 12: FF FF then 00 sums to 510; acc 0xFE, checksum 0xFE (readings B and C give 0x00). -/
theorem test_checksum_wraps :
    after (exec (.checksum ([0xFF, 0xFF] ++ rep 126 0)) State.reset) (fun t => (t.acc, t.codecOut)) =
      some (0xFE, .byte 0xFE) := by decide

/-- V1 row 6: FF then 00; acc 0xFF, checksum 0x00. -/
theorem test_checksum_255_is_0 :
    after (exec (.checksum ([0xFF] ++ rep 127 0)) State.reset) (fun t => (t.acc, t.codecOut)) =
      some (0xFF, .byte 0x00) := by decide

/-- An implementation whose checksum of one block is not R111's (here V1 row 9 by reading B): every other block keeps it (log 13). -/
theorem test_checksum_parameter :
    checksumOf { defaultConfig with cksumOverrides := [([0xFF, 0x01] ++ rep 126 0, 0x01)] } ([0xFF, 0x01] ++ rep 126 0) = 0x01 ∧
    checksumOf { defaultConfig with cksumOverrides := [([0xFF, 0x01] ++ rep 126 0, 0x01)] } ([0xFE, 0x01] ++ rep 126 0) = 0x00 := by
  decide

/-- V2: 231 gives 0x18. -/
theorem test_complement_of_231 : after (exec (.complement 0xE7) State.reset) (·.codecOut) = some (.byte 0x18) := by decide

/-- V3 row 3. -/
theorem test_frame_row_3 :
    after (exec (.frame 0x02 ([0x81, 0x82] ++ rep 126 0)) State.reset) (·.codecOut) =
      some (.bytes ([0x01, 0x02, 0xFD, 0x81, 0x82] ++ rep 126 0 ++ [0x03])) := by decide

/-- V3 row 2 (in full in P2): the data bytes ascend. -/
theorem test_frame_row_2 :
    after (exec (.frame 0x01 (upFrom 128 0x01)) State.reset) (·.codecOut) =
      some (.bytes ([0x01, 0x01, 0xFE] ++ upFrom 128 0x01 ++ [0x40])) := by decide

/-- V4 rows 2 to 6: each conjunct that can fail. -/
theorem test_deframe_rejects :
    deframeOf defaultConfig 1 ([0x02, 0x01, 0xFE] ++ rep 128 0 ++ [0x00]) = none ∧
    deframeOf defaultConfig 2 ([0x01, 0x01, 0xFE] ++ rep 128 0 ++ [0x00]) = none ∧
    deframeOf defaultConfig 1 ([0x01, 0x01, 0xFD] ++ rep 128 0 ++ [0x00]) = none ∧
    deframeOf defaultConfig 1 ([0x01, 0x01, 0xFE] ++ rep 128 0 ++ [0x01]) = none ∧
    deframeOf defaultConfig 1 ([0x01, 0x01, 0xFE] ++ rep 128 0 ++ [0xFF]) = none := by decide

/-- V4 row 7, the blind spot. -/
theorem test_deframe_blind_spot :
    after (exec (.deframe 1 ([0x01, 0x01, 0xFE, 0xFF] ++ rep 127 0 ++ [0x00])) State.reset) (·.codecOut) =
      some (.deframed (some ([0xFF] ++ rep 127 0))) := by decide

/-- R85; the handshake of V5 row 2 is done. -/
theorem test_soh_at_header : after (exec .soh (rxAt .rxHeader)) (·.phase) = some .rxSeq := by decide

/-- V6 row 9: SOH is not a reply. -/
theorem test_soh_at_reply :
    after (exec .soh (txAt .txReply 128)) (fun t => (t.result, t.phase, t.packetNumber)) =
      some (.err (.protocolViolation .txReply), .idle, 1) := by decide

/-- V5 row 4: EOT as header, and as the second EOT. -/
theorem test_eot :
    after (exec .eot (rxAt .rxHeader)) (·.phase) = some .rxEotNak ∧
    after (exec .eot (rxAt .rxEot2)) (·.phase) = some .rxEotAck := by decide

/-- V6 row 17: `packet_number` 0xFF becomes 0x00. -/
theorem test_ack_wraps :
    after (exec .ack { txAt .txReply 128 with packetNumber := 0xFF }) (fun t => (t.result, t.packetNumber)) =
      some (.ok 128, 0x00) := by decide

/-- V6 row 14: ACK is not accepted for the first EOT. -/
theorem test_ack_at_first_eot :
    after (exec .ack (txAt .txEot1 0)) (·.result) = some (.err (.protocolViolation .txEot1)) := by decide

/-- V6 row 6: the tenth NAK; and V6 row 5: the ninth. -/
theorem test_nak_bound :
    after (exec .nak { txAt .txReply 128 with attempt := 10 }) (·.result) = some (.err (.retryExhausted .inner)) ∧
    after (exec .nak { txAt .txReply 128 with attempt := 9 }) (fun t => (t.phase, t.attempt)) = some (.txSoh, 10) := by
  decide

/-- V5 row 9 and V5 row 12: a cancel, and a sequence byte. -/
theorem test_can :
    after (exec .can (rxAt .rxHeader)) (·.result) = some (.err (.peerAbort .rxHeader)) ∧
    after (exec .can { rxAt .rxSeq with packetNumber := 0x18 }) (·.phase) = some .rxCmp := by decide

/-- V5 row 3. -/
theorem test_data_good :
    after (exec (.data 0x02 0xFD ([0x81, 0x82] ++ rep 126 0) 0x03) { rxAt .rxHeader with packetNumber := 2 })
      (fun t => (t.phase, t.x.toList)) = some (.rxAck, [0x81, 0x82] ++ rep 126 0) := by decide

/-- V5 row 7: a wrong sequence byte; the 130 bytes behind it stay in the channel (P6). -/
theorem test_data_wrong_seq :
    after (exec (.data 0x02 0xFD (rep 128 0) 0x00) (rxAt .rxHeader)) (fun t => (t.phase, t.chanRd.length)) =
      some (.rxSeqCan, 130) := by decide

/-- R190's example. -/
theorem test_new :
    after (exec .new { txAt .terminated 0 with packetNumber := 3 }) (fun t => (t.packetNumber, t.handshakeDone, t.phase)) =
      some (1, false, .idle) := by decide

/-- V5 rows 1 and 24. -/
theorem test_rxPacket :
    after (exec (.rxPacket 127) State.reset) (fun t => (t.result, t.handshakeDone)) =
      some (.err (.contractViolation .rxBufferTooSmall), false) ∧
    after (exec (.rxPacket 200) State.reset) (·.phase) = some .rxHsNak := by decide

/-- V6 rows 1 and 2. -/
theorem test_txPacket_bad_length :
    after (exec (.txPacket 5) State.reset) (·.result) = some (.err (.contractViolation .txBadLength)) ∧
    after (exec (.txPacket 129) State.reset) (·.result) = some (.err (.contractViolation .txBadLength)) := by decide

/-- V6 row 13. -/
theorem test_txPacket_empty : after (exec (.txPacket 0) (txAt .idle 0)) (·.phase) = some .txEot1Send := by decide

/-- R195: RECEIVE begins with NEW, from Terminated too. -/
theorem test_receive :
    after (exec .receive { txAt .terminated 0 with packetNumber := 3 }) (fun t => (t.packetNumber, t.phase)) =
      some (1, .rxHsNak) := by decide

/-- R200, R205: TRANSMIT of an empty source: the first chunk is empty, so the handshake and then the EOTs. -/
theorem test_transmit :
    after (exec .transmit State.reset) (fun t => (t.phase, t.n)) = some (.trSrc, 0) ∧
    after (step { atPhase .trSrc with cmd := .transmit }) (fun t => (t.phase, t.len)) = some (.txHandshake, 0) := by decide

/-- R229: the codes RESULT shows for V5 row 21. -/
theorem test_result_codes :
    CmdResult.fields (.err (.ioFailure .chanRd (.other 3) .rxCksum)) =
      { ok := false, count := none, kind := some 5, site := some 8, subCause := none, ioKind := some 2 } := by decide

/-! ### Witnesses: a state that meets all hypotheses of each obligation -/

theorem witness_DecodeEncodeRoundTrip :
    (Instr.data 0x18 0xE7 (rep 128 0x18) 0).WellFormed ∧ (Instr.frame 0xFF (rep 128 0)).WellFormed := by decide

theorem witness_WireUnitsAreSymbolsAndFrames :
    decode (.wire [0x18]) = .ok .can ∧ ([0x01] ++ rep 131 0xFF).length = 132 ∧ ([0x02] ++ rep 131 0xFF).length = 132 :=
  ⟨rfl, rfl, rfl⟩

theorem witness_ReservedAndBusyCommandsRefused :
    ((given 5 0 State.reset).resetPin = false ∧ (given 5 0 State.reset).busy = false ∧
      (given 5 0 State.reset).host = .command 5 0 :: [] ∧ 5 ≤ (5 : BitVec 3).toNat) ∧
    ((given 7 9 (atPhase .terminated)).resetPin = false ∧ (given 7 9 (atPhase .terminated)).busy = false ∧
      (given 7 9 (atPhase .terminated)).host = .command 7 9 :: [] ∧ 5 ≤ (7 : BitVec 3).toNat) ∧
    ((atPhase .trSrc).busy = true ∧ isCommand .new = true ∧ isCommand (.rxPacket 0) = true) :=
  ⟨⟨rfl, rfl, rfl, by decide⟩, ⟨rfl, rfl, rfl, by decide⟩, rfl, rfl, rfl⟩

theorem witness_StepRunsDecodedInstruction :
    ((given 1 128 State.reset).resetPin = false ∧ (given 1 128 State.reset).busy = false ∧
      (given 1 128 State.reset).host = .command 1 128 :: [] ∧ decode (.cmd 1 128) = .ok (.rxPacket 128)) ∧
    (({ rxAt .terminated with host := [.writeX 127 0x55] } : State).resetPin = false ∧
      ({ rxAt .terminated with host := [.writeX 127 0x55] } : State).busy = false ∧
      ({ rxAt .terminated with host := [.writeX 127 0x55] } : State).host = .writeX 127 0x55 :: []) ∧
    ((reads 0x15 (txAt .txReply 128)).resetPin = false ∧ (reads 0x15 (txAt .txReply 128)).phase.port = some .chanRd ∧
      (reads 0x15 (txAt .txReply 128)).readAnswers = .byte 0x15 :: [] ∧ decode (.wire [0x15]) = .ok .nak) :=
  ⟨⟨rfl, rfl, rfl, rfl⟩, ⟨rfl, rfl, rfl⟩, rfl, rfl, rfl, rfl⟩

/-- The premise of R111. -/
theorem witness_NormativeChecksum : NormativeChecksum State.reset.config := normativeChecksum_default

theorem witness_codec_operands : (upFrom 128 0xFF).length = 128 ∧ (rep 132 0x01).length = 132 ∧ (0x01 : Byte) ≠ 0x02 := by
  decide

theorem witness_ChecksumBlindSpots :
    (∃ h : 0 < (rep 128 0).length, (rep 128 0)[0] ≠ 0xFF) ∧ ([0x7F, 0x80] : List Byte).Perm [0x80, 0x7F] :=
  ⟨⟨by decide, by decide⟩, List.Perm.swap _ _ _⟩

/-- One state for each row of R85. -/
theorem witness_HeaderByteTable :
    ∀ b ∈ ([0x01, 0x04, 0x18, 0x00] : List Byte),
      (reads b (rxAt .rxHeader)).resetPin = false ∧ (reads b (rxAt .rxHeader)).phase = .rxHeader ∧
      (reads b (rxAt .rxHeader)).readAnswers = .byte b :: [] :=
  fun _ _ => ⟨rfl, rfl, rfl⟩

/-- The same premises, met by an answer the environment repeats. -/
theorem witness_repeated_answers :
    ({ rxAt .rxHeader with again := { State.reset.again with chanRd := [.byte 0x01] } } : State).readAnswers = .byte 0x01 :: [] ∧
    ({ rxAt .rxAck with again := { State.reset.again with chanWrAns := [.accepted] } } : State).writeAnswers = .accepted :: [] :=
  ⟨rfl, rfl⟩

theorem witness_SymbolsAtTheHeaderSite : (rxAt .rxHeader).phase = .rxHeader := rfl

/-- TX_PACKET and TRANSMIT, below the bound and at it. -/
theorem witness_SymbolsAtTheReplySite :
    (txAt .txReply 128).phase = .txReply ∧ (txAt .txReply 128).cmd = .txPacket ∧ (txAt .txReply 128).attempt ≠ 10 ∧
    ({ txAt .txReply 128 with cmd := .transmit, attempt := 10 } : State).phase = .txReply ∧
    ({ txAt .txReply 128 with cmd := .transmit, attempt := 10 } : State).cmd = .transmit ∧
    ({ txAt .txReply 128 with cmd := .transmit, attempt := 10 } : State).attempt = 10 := by decide

/-- Each site, with the expected byte equal to CAN at the first two (R146). -/
theorem witness_ReceiverExpectedByteTable :
    ((reads 0x18 { rxAt .rxSeq with packetNumber := 0x18 }).resetPin = false ∧
      (reads 0x18 { rxAt .rxSeq with packetNumber := 0x18 }).readAnswers = .byte 0x18 :: [] ∧
      (reads 0x18 { rxAt .rxSeq with packetNumber := 0x18 }).phase = .rxSeq) ∧
    ((reads 0x18 { rxAt .rxCmp with packetNumber := 231 }).resetPin = false ∧
      (reads 0x18 { rxAt .rxCmp with packetNumber := 231 }).readAnswers = .byte 0x18 :: [] ∧
      (reads 0x18 { rxAt .rxCmp with packetNumber := 231 }).phase = .rxCmp) ∧
    ((reads 0x05 (rxAt .rxEot2)).resetPin = false ∧ (reads 0x05 (rxAt .rxEot2)).readAnswers = .byte 0x05 :: [] ∧
      (reads 0x05 (rxAt .rxEot2)).phase = .rxEot2) :=
  ⟨⟨rfl, rfl, rfl⟩, ⟨rfl, rfl, rfl⟩, rfl, rfl, rfl⟩

/-- The first and the last data byte, a failed read, and the checksum byte. -/
theorem witness_RawSitesTakeEveryByte :
    ((reads 0x18 (rxAt (.rxData 0))).resetPin = false ∧ (reads 0x18 (rxAt (.rxData 0))).phase = .rxData (0 : Fin 128) ∧
      (reads 0x18 (rxAt (.rxData 0))).readAnswers = .byte 0x18 :: []) ∧
    (({ rxAt (.rxData 127) with chanRd := [.fail .interrupted] } : State).resetPin = false ∧
      ({ rxAt (.rxData 127) with chanRd := [.fail .interrupted] } : State).phase = .rxData (127 : Fin 128) ∧
      ({ rxAt (.rxData 127) with chanRd := [.fail .interrupted] } : State).readAnswers = .fail .interrupted :: []) ∧
    ((reads 0xFF (rxAt .rxCksum)).resetPin = false ∧ (reads 0xFF (rxAt .rxCksum)).phase = .rxCksum ∧
      (reads 0xFF (rxAt .rxCksum)).readAnswers = .byte 0xFF :: []) :=
  ⟨⟨rfl, rfl, rfl⟩, ⟨rfl, rfl, rfl⟩, rfl, rfl, rfl⟩

theorem witness_SenderExpectedByteTable :
    ((reads 0x15 (txAt .txHandshake 128)).resetPin = false ∧ (reads 0x15 (txAt .txHandshake 128)).readAnswers = .byte 0x15 :: [] ∧
      (reads 0x15 (txAt .txHandshake 128)).phase = .txHandshake) ∧
    ((reads 0x06 (txAt .txEot1 0)).resetPin = false ∧ (reads 0x06 (txAt .txEot1 0)).readAnswers = .byte 0x06 :: [] ∧
      (reads 0x06 (txAt .txEot1 0)).phase = .txEot1) ∧
    ((reads 0x06 (txAt .txEot2 0)).resetPin = false ∧ (reads 0x06 (txAt .txEot2 0)).readAnswers = .byte 0x06 :: [] ∧
      (reads 0x06 (txAt .txEot2 0)).phase = .txEot2 ∧ (reads 0x06 (txAt .txEot2 0)).cmd = .txPacket) :=
  ⟨⟨rfl, rfl, rfl⟩, ⟨rfl, rfl, rfl⟩, rfl, rfl, rfl, rfl⟩

/-- One state for each row of R89, in TX_PACKET and in TRANSMIT. -/
theorem witness_ReplyByteTable :
    ∀ b ∈ ([0x06, 0x15, 0x18, 0x07] : List Byte), ∀ c ∈ [Cmd.txPacket, .transmit],
      (reads b { txAt .txReply 128 with cmd := c }).resetPin = false ∧
      (reads b { txAt .txReply 128 with cmd := c }).phase = .txReply ∧
      (reads b { txAt .txReply 128 with cmd := c }).readAnswers = .byte b :: [] ∧
      (reads b { txAt .txReply 128 with cmd := c }).cmd = c :=
  fun _ _ _ _ => ⟨rfl, rfl, rfl, rfl⟩

/-- The premises of `CanThenViolation`, at each of the seven phases. -/
theorem witness_CanThenViolation :
    ∀ p ∈ [Phase.rxSeqCan, .rxCmpCan, .rxEot2Can, .txHandshakeCan, .txEot1Can, .txEot2Can, .txReplyCan],
      (writes (txAt p 128)).resetPin = false ∧ (writes (txAt p 128)).phase = p ∧
      (writes (txAt p 128)).writeAnswers = .accepted :: [] := fun _ _ => ⟨rfl, rfl, rfl⟩

theorem witness_SymbolWaitsWhileNotRead : State.reset.phase.port ≠ some .chanRd ∧ (txAt .txSoh 128).phase.port ≠ some .chanRd := by
  decide

theorem witness_DataFrameAtTheHeaderSite : (rep 128 0x18).length = 128 ∧ (rxAt .rxHeader).phase = .rxHeader := by decide

/-- The write accepted and failed, in RX_PACKET and in RECEIVE. -/
theorem witness_AcceptAcknowledgesThenAdvances :
    ∀ c ∈ [Cmd.rxPacket, .receive],
      ((writes { rxAt .rxAck with cmd := c }).resetPin = false ∧ (writes { rxAt .rxAck with cmd := c }).phase = .rxAck ∧
        (writes { rxAt .rxAck with cmd := c }).cmd = c ∧
        (writes { rxAt .rxAck with cmd := c }).writeAnswers = .accepted :: []) ∧
      ((failsWrite .interrupted { rxAt .rxAck with cmd := c }).resetPin = false ∧
        (failsWrite .interrupted { rxAt .rxAck with cmd := c }).phase = .rxAck ∧
        (failsWrite .interrupted { rxAt .rxAck with cmd := c }).cmd = c ∧
        (failsWrite .interrupted { rxAt .rxAck with cmd := c }).writeAnswers = .fail .interrupted true :: []) :=
  fun _ _ => ⟨⟨rfl, rfl, rfl, rfl⟩, rfl, rfl, rfl, rfl⟩

theorem witness_RejectNaksAndReadsAgain :
    (writes (rxAt .rxNak)).resetPin = false ∧ (writes (rxAt .rxNak)).phase = .rxNak ∧
    (writes (rxAt .rxNak)).writeAnswers = .accepted :: [] := ⟨rfl, rfl, rfl⟩

/-- Capacity at its bound; the write accepted and failed. -/
theorem witness_HandshakeNakWrittenOnce :
    (State.reset.phase = .idle ∧ State.reset.role ≠ some .sender ∧ 128 ≤ 128) ∧
    ((writes (rxAt .rxHsNak)).resetPin = false ∧ (writes (rxAt .rxHsNak)).phase = .rxHsNak ∧
      (writes (rxAt .rxHsNak)).writeAnswers = .accepted :: []) ∧
    ((failsWrite (.other 0) (rxAt .rxHsNak)).resetPin = false ∧ (failsWrite (.other 0) (rxAt .rxHsNak)).phase = .rxHsNak ∧
      (failsWrite (.other 0) (rxAt .rxHsNak)).cmd = .rxPacket ∧
      (failsWrite (.other 0) (rxAt .rxHsNak)).writeAnswers = .fail (.other 0) true :: []) :=
  ⟨⟨rfl, by decide, by decide⟩, ⟨rfl, rfl, rfl⟩, rfl, rfl, rfl, rfl⟩

theorem witness_ReceiverTermination :
    ((writes (rxAt .rxEotNak)).resetPin = false ∧ (writes (rxAt .rxEotNak)).phase = .rxEotNak ∧
      (writes (rxAt .rxEotNak)).writeAnswers = .accepted :: []) ∧
    ((writes (rxAt .rxEotAck)).resetPin = false ∧ (writes (rxAt .rxEotAck)).phase = .rxEotAck ∧
      (writes (rxAt .rxEotAck)).cmd = .rxPacket ∧ (writes (rxAt .rxEotAck)).writeAnswers = .accepted :: []) ∧
    ((failsWrite .interrupted (rxAt .rxEotAck)).phase = .rxEotAck ∧ (failsWrite .interrupted (rxAt .rxEotAck)).cmd = .rxPacket ∧
      (failsWrite .interrupted (rxAt .rxEotAck)).writeAnswers = .fail .interrupted true :: []) :=
  ⟨⟨rfl, rfl, rfl⟩, ⟨rfl, rfl, rfl, rfl⟩, rfl, rfl, rfl⟩

theorem witness_CanWriteThenProtocolViolation :
    ((writes (rxAt .rxSeqCan)).resetPin = false ∧ (writes (rxAt .rxSeqCan)).phase.canOf = some .rxSeq ∧
      (writes (rxAt .rxSeqCan)).phase.site = some .rxSeqCan ∧ (writes (rxAt .rxSeqCan)).writeAnswers = .accepted :: []) ∧
    ((failsWrite .interrupted (txAt .txReplyCan 128)).phase.canOf = some .txReply ∧
      (failsWrite .interrupted (txAt .txReplyCan 128)).phase.site = some .txReplyCan ∧
      (failsWrite .interrupted (txAt .txReplyCan 128)).writeAnswers = .fail .interrupted true :: [] ∧
      (failsWrite .interrupted (txAt .txReplyCan 128)).cmd ≠ .transmit) :=
  ⟨⟨rfl, rfl, rfl, rfl⟩, rfl, rfl, rfl, by decide⟩

/-- A site that always emits CAN and one whose parameter is set. -/
theorem witness_CanOnlyAfterAMismatch :
    (∃ t, step (reads 0x02 (rxAt .rxSeq)) = .next t ∧ t.phase.canOf = some .rxSeq) ∧
    (∃ t, step (reads 0x07 { txAt .txReply 128 with config := { defaultConfig with emitCanTxReply := true } }) = .next t ∧
      t.phase.canOf = some .txReply) := ⟨⟨_, rfl, rfl⟩, _, rfl, rfl⟩

/-- One state for each port. -/
theorem witness_PortFailureEndsTheCommand :
    (({ rxAt .rxCksum with chanRd := [.fail .interrupted] } : State).resetPin = false ∧
      ({ rxAt .rxCksum with chanRd := [.fail .interrupted] } : State).phase.site = some .rxCksum ∧
      ({ rxAt .rxCksum with chanRd := [.fail .interrupted] } : State).phase.port = some .chanRd ∧
      Site.rxCksum ≠ Site.rxData ∧ ({ rxAt .rxCksum with chanRd := [.fail .interrupted] } : State).cmd ≠ .transmit) ∧
    ((failsWrite (.other 2) (txAt (.txData 127) 128)).phase.site = some .txData ∧
      (failsWrite (.other 2) (txAt (.txData 127) 128)).phase.port = some .chanWr ∧
      (failsWrite (.other 2) (txAt (.txData 127) 128)).cmd ≠ .transmit) ∧
    (({ atPhase .trSrc with src := [.fail .interrupted] } : State).phase.port = some .src ∧
      ({ atPhase .trSrc with src := [.fail .interrupted] } : State).phase.site = some .trSrc) ∧
    (({ rxAt .rcSink with sinkAns := [.fail .interrupted] } : State).phase.port = some .sink ∧
      ({ rxAt .rcSink with sinkAns := [.fail .interrupted] } : State).phase.site = some .rcSink) := by decide

theorem witness_NewMakesAFreshEngine : State.reset.busy = false ∧ (txAt .terminated 0).busy = false := by decide

/-- Busy, Terminated, the other role, and a capacity one below the bound. -/
theorem witness_RxPacketAdmissionAndBufferCheck :
    (rxAt .rxHeader).busy = true ∧ (rxAt .terminated).phase = .terminated ∧
    ((txAt .idle 0).phase = .idle ∧ (txAt .idle 0).role = some .sender) ∧
    (State.reset.phase = .idle ∧ State.reset.role ≠ some .sender ∧ 127 < 128) := by decide

/-- Busy, Terminated, the other role, one entry never written, and lengths beside the two legal ones. -/
theorem witness_TxPacketAdmissionAndLengthCheck :
    (txAt .txSoh 128).busy = true ∧ (txAt .terminated 0).phase = .terminated ∧
    ((rxAt .idle).phase = .idle ∧ (rxAt .idle).role = some .receiver) ∧
    (State.reset.phase = .idle ∧ State.reset.role ≠ some .receiver ∧ State.reset.xWritten.get 127 = false) ∧
    ((1 ≠ 0 ∧ 1 ≠ 128) ∧ (127 ≠ 0 ∧ 127 ≠ 128) ∧ (129 ≠ 0 ∧ 129 ≠ 128)) := by decide

/-- All of `x` written. -/
theorem all_written (i : Fin 128) : (Vector.replicate 128 true).get i = true := by simp

theorem witness_TxPacketStarts :
    (State.reset.phase = .idle ∧ State.reset.role ≠ some .receiver) ∧
    ((txAt .idle 0).phase = .idle ∧ (txAt .idle 0).role ≠ some .receiver ∧ ∀ i, (txAt .idle 0).xWritten.get i = true) :=
  ⟨by decide, rfl, by decide, all_written⟩

theorem witness_DriversBeginWithNew : (rxAt .terminated).busy = false := by decide

theorem witness_TransmissionWritesTheFrame :
    ({ txAt .txSoh 128 with chanWrAns := accepts 132 ++ [] } : State).resetPin = false ∧
    ({ txAt .txSoh 128 with chanWrAns := accepts 132 ++ [] } : State).phase = .txSoh ∧
    ({ txAt .txSoh 128 with chanWrAns := accepts 132 ++ [] } : State).chanWrAns = accepts 132 ++ [] := ⟨rfl, rfl, rfl⟩

/-- 127 data bytes and one failed read (V5 row 16). -/
def fiveFailsOne : List ReadAnswer := (rep 5 0).map .byte ++ [.fail .interrupted] ++ (rep 122 0).map .byte

/-- The engine of `witness_FrameReadByteByByte`. -/
def readsAFrame : State :=
  { rxAt .rxHeader with
    chanRd := [.byte 0x01, .byte 1, .byte (complementOf 1)] ++ fiveFailsOne ++ .byte 0x00 :: [] }

theorem witness_FrameReadByteByByte :
    fiveFailsOne.length = 128 ∧ readsAFrame.resetPin = false ∧ readsAFrame.phase = .rxHeader ∧
    readsAFrame.chanRd = [.byte 0x01, .byte readsAFrame.packetNumber, .byte (complementOf readsAFrame.packetNumber)] ++
      fiveFailsOne ++ .byte 0x00 :: [] := ⟨rfl, rfl, rfl, rfl⟩

theorem witness_DataInstructionIsItsByteReads :
    (rep 128 0xFF).length = 128 ∧ (rxAt .rxHeader).resetPin = false ∧ (rxAt .rxHeader).phase = .rxHeader := by decide

/-- P6: the frame of another packet number stops being read after two bytes; a run and the instruction agree. -/
theorem test_two_reads_of_a_wrong_frame :
    after (runSteps 2 { rxAt .rxHeader with chanRd := (frameBytes 0x02 0xFD (rep 128 0) 0x00).map .byte })
      (fun t => (t.phase, t.chanRd.length)) = some (.rxSeqCan, 130) := by decide

/-- One rejected frame (V5 row 5): zeros with checksum 1. -/
def oneBad : List (List Byte × Byte) := [(rep 128 0, 0x01)]

/-- V5 row 5: a fresh engine, a bad frame, a good one. -/
def rejectsThenAccepts : State :=
  { State.reset with
    chanRd := (oneBad.flatMap fun p => (frameBytes 1 (complementOf 1) p.1 p.2).map ReadAnswer.byte) ++
      (frameOf defaultConfig 1 (rep 128 0)).map ReadAnswer.byte ++ []
    chanWrAns := accepts 3 ++ [] }

theorem witness_RxPacketRetriesUntilAccept :
    (rep 128 0).length = 128 ∧ rejectsThenAccepts.resetPin = false ∧ rejectsThenAccepts.phase = .idle ∧
    rejectsThenAccepts.role ≠ some .sender ∧ 128 ≤ 128 ∧ (∀ p ∈ oneBad, p.1.length = 128 ∧ p.2 ≠ checksumOf rejectsThenAccepts.config p.1) ∧
    rejectsThenAccepts.chanRd = (oneBad.flatMap fun p =>
        (frameBytes rejectsThenAccepts.packetNumber (complementOf rejectsThenAccepts.packetNumber) p.1 p.2).map ReadAnswer.byte) ++
      (frameOf rejectsThenAccepts.config rejectsThenAccepts.packetNumber (rep 128 0)).map ReadAnswer.byte ++ [] ∧
    rejectsThenAccepts.chanWrAns =
      accepts ((if rejectsThenAccepts.handshakeDone then 0 else 1) + oneBad.length + 1) ++ [] :=
  ⟨rfl, rfl, rfl, by decide, by decide, by decide, rfl, rfl⟩

/-- A fresh engine whose peer repeats V5 row 5's bad frame for ever. -/
def rejectsForEver : State :=
  { State.reset with
    again := { State.reset.again with
      chanRd := (frameBytes 1 (complementOf 1) (rep 128 0) 0x01).map .byte
      chanWrAns := [.accepted] } }

theorem witness_RxPacketCanRunForEver :
    rejectsForEver.resetPin = false ∧ rejectsForEver.phase = .idle ∧ rejectsForEver.role ≠ some .sender ∧ 128 ≤ 128 ∧
    (rep 128 0).length = 128 ∧ (0x01 : Byte) ≠ checksumOf rejectsForEver.config (rep 128 0) ∧ rejectsForEver.chanRd = [] ∧
    rejectsForEver.again.chanRd =
      (frameBytes rejectsForEver.packetNumber (complementOf rejectsForEver.packetNumber) (rep 128 0) 0x01).map .byte ∧
    rejectsForEver.chanWrAns = [] ∧ rejectsForEver.again.chanWrAns = [.accepted] :=
  ⟨rfl, rfl, by decide, by decide, rfl, by decide, rfl, rfl, rfl, rfl⟩

/-- V6 row 5: nine NAKs, then ACK, on an engine whose handshake is not done. -/
def nineNaks : State :=
  { txAt .idle 0 with
    handshakeDone := false
    chanRd := List.replicate 10 (.byte 0x15) ++ .byte 0x06 :: []
    chanWrAns := accepts 1320 ++ [] }

theorem witness_TxPacketResendsUntilAck :
    nineNaks.resetPin = false ∧ nineNaks.phase = .idle ∧ nineNaks.role ≠ some .receiver ∧
    (∀ i, nineNaks.xWritten.get i = true) ∧ 9 < 10 ∧
    nineNaks.chanRd = List.replicate ((if nineNaks.handshakeDone then 0 else 1) + 9) (.byte 0x15) ++ .byte 0x06 :: [] ∧
    nineNaks.chanWrAns = accepts (132 * (9 + 1)) ++ [] :=
  ⟨rfl, rfl, by decide, all_written, by decide, rfl, rfl⟩

/-- V6 row 6, with the handshake done. -/
def tenNaks : State :=
  { txAt .idle 0 with chanRd := List.replicate 10 (.byte 0x15) ++ [], chanWrAns := accepts 1320 ++ [] }

theorem witness_TenNaksExhaustTheRetries :
    tenNaks.resetPin = false ∧ tenNaks.phase = .idle ∧ tenNaks.role ≠ some .receiver ∧ (∀ i, tenNaks.xWritten.get i = true) ∧
    tenNaks.chanRd = List.replicate ((if tenNaks.handshakeDone then 0 else 1) + 10) (.byte 0x15) ++ [] ∧
    tenNaks.chanWrAns = accepts 1320 ++ [] :=
  ⟨rfl, rfl, by decide, all_written, rfl, rfl⟩

/-- V6 row 12. -/
def emptyCall : State :=
  { State.reset with chanRd := [.byte 0x15, .byte 0x15, .byte 0x06], chanWrAns := accepts 2 ++ [] }

theorem witness_EmptyPacketCallTerminates :
    emptyCall.resetPin = false ∧ emptyCall.phase = .idle ∧ emptyCall.role ≠ some .receiver ∧
    emptyCall.chanRd = List.replicate (if emptyCall.handshakeDone then 0 else 1) (.byte 0x15) ++ .byte 0x15 :: .byte 0x06 :: [] ∧
    emptyCall.chanWrAns = accepts 2 ++ [] := ⟨rfl, rfl, by decide, rfl, rfl⟩

/-- An engine about to fill a chunk from the source `D`. -/
def fills (D : List Byte) : State := { txAt .trSrc 128 with cmd := .transmit, src := D.map SrcAnswer.byte }

/-- A source of 0 bytes and one of 130 (P1, P2). -/
theorem witness_ChunkIsFilledAndPadded :
    ((fills []).resetPin = false ∧ (fills []).phase = .trSrc ∧ (fills []).n = 0 ∧
      (fills []).src = ([] : List Byte).map SrcAnswer.byte ∧ (fills []).again.src = []) ∧
    ((fills (upFrom 130 0x01)).resetPin = false ∧ (fills (upFrom 130 0x01)).phase = .trSrc ∧ (fills (upFrom 130 0x01)).n = 0 ∧
      (fills (upFrom 130 0x01)).src = (upFrom 130 0x01).map SrcAnswer.byte ∧ (fills (upFrom 130 0x01)).again.src = []) :=
  ⟨⟨rfl, rfl, rfl, rfl, rfl⟩, rfl, rfl, rfl, rfl, rfl⟩

/-- V8 rows 2 and 1: a read and a write, the bound reached and not; the handshake done and not. -/
theorem witness_InterruptedChunkIsReissued :
    (({ txAt .txReply 128 with cmd := .transmit, outer := 10, chanRd := [.fail .interrupted] } : State).resetPin = false ∧
      ({ txAt .txReply 128 with cmd := .transmit, outer := 10, chanRd := [.fail .interrupted] } : State).phase.owner = some .sender ∧
      ({ txAt .txReply 128 with cmd := .transmit, outer := 10, chanRd := [.fail .interrupted] } : State).phase.port = some .chanRd) ∧
    ((failsWrite .interrupted { txAt (.txData 40) 128 with cmd := .transmit, outer := 1 }).phase.owner = some .sender ∧
      (failsWrite .interrupted { txAt (.txData 40) 128 with cmd := .transmit, outer := 1 }).len = 128 ∧
      (failsWrite .interrupted { txAt (.txData 40) 128 with cmd := .transmit, outer := 1 }).phase.port = some .chanWr) ∧
    (({ txAt .txHandshake 128 with cmd := .transmit, handshakeDone := false, chanRd := [.fail .interrupted] } : State).phase.port =
        some .chanRd ∧
      ({ txAt .txHandshake 128 with cmd := .transmit, handshakeDone := false, chanRd := [.fail .interrupted] } : State).cmd =
        .transmit) := by decide

theorem witness_SinkTakesThePacket :
    ({ rxAt .rcSink with sinkAns := [.accepted] } : State).resetPin = false ∧
    ({ rxAt .rcSink with sinkAns := [.accepted] } : State).phase = .rcSink ∧
    ({ rxAt .rcSink with sinkAns := [.accepted] } : State).handshakeDone = true ∧
    ({ rxAt .rcSink with sinkAns := [.accepted] } : State).sinkAnswers = .accepted :: [] := ⟨rfl, rfl, rfl, rfl⟩

/-- A receiver's environment for two packets. -/
def twoPackets : List (List Byte) := [upFrom 128 0x01, [0x81, 0x82] ++ rep 126 0]

/-- P2 on the receiver's side. -/
def receivesTwo : State :=
  { State.reset with
    chanRd := (framesFrom defaultConfig 1 twoPackets).map ReadAnswer.byte ++ .byte 0x04 :: .byte 0x04 :: []
    chanWrAns := accepts 5 ++ []
    sinkAns := List.replicate 2 SinkAnswer.accepted ++ [] }

theorem witness_ReceiveDeliversEveryPacket :
    receivesTwo.resetPin = false ∧ receivesTwo.busy = false ∧ (∀ d ∈ twoPackets, d.length = 128) ∧
    receivesTwo.chanRd = (framesFrom receivesTwo.config 1 twoPackets).map ReadAnswer.byte ++ .byte 0x04 :: .byte 0x04 :: [] ∧
    receivesTwo.chanWrAns = accepts (twoPackets.length + 3) ++ [] ∧
    receivesTwo.sinkAns = List.replicate twoPackets.length SinkAnswer.accepted ++ [] :=
  ⟨rfl, rfl, by decide, rfl, rfl, rfl⟩

/-- The chunks of R201 for 130 bytes: two packets, the second padded with 126 zeros (P2). -/
theorem test_packetsOf_130 : packetsOf (upFrom 130 0x01) = twoPackets := by decide

/-- P2 on the sender's side. -/
def transmits130 : State :=
  { State.reset with
    src := (upFrom 130 0x01).map SrcAnswer.byte
    chanRd := .byte 0x15 :: List.replicate 2 (.byte 0x06) ++ .byte 0x15 :: .byte 0x06 :: []
    chanWrAns := accepts 266 ++ [] }

theorem witness_TransmitSendsEveryChunk :
    transmits130.resetPin = false ∧ transmits130.busy = false ∧ transmits130.src = (upFrom 130 0x01).map SrcAnswer.byte ∧
    transmits130.again.src = [] ∧ transmits130.chanRd =
      .byte 0x15 :: List.replicate (packetsOf (upFrom 130 0x01)).length (.byte 0x06) ++ .byte 0x15 :: .byte 0x06 :: [] ∧
    transmits130.chanWrAns = accepts (132 * (packetsOf (upFrom 130 0x01)).length + 2) ++ [] := by
  rw [test_packetsOf_130]
  exact ⟨rfl, rfl, rfl, rfl, rfl, rfl⟩

theorem witness_ResetStopsAnyCommand : ({ txAt (.txData 3) 128 with resetPin := true } : State).resetPin = true := rfl

theorem witness_HostRegisterAccess : (rxAt .rxHeader).busy = true ∧ (rxAt .idle).busy = false ∧ (rxAt .terminated).busy = false := by
  decide

/-- Each reason to wait. -/
theorem witness_NoStepExactlyWhileWaiting :
    step (rxAt .rxHeader) = .fault (.waiting .chanRd) ∧ step (txAt .txSoh 128) = .fault (.waiting .chanWr) ∧
    step (rxAt .rcSink) = .fault (.waiting .sink) ∧ step State.reset = .fault .waitingForCommand := ⟨rfl, rfl, rfl, rfl⟩

/-- Each refusal a step can give. -/
theorem witness_OnlyCommandsAreRefused :
    step (given 1 128 (rxAt .terminated)) = .refused .terminated ∧ step (given 1 128 (txAt .idle 0)) = .refused .wrongRole ∧
    step (given 2 128 State.reset) = .refused .bufferUnwritten ∧ step (given 6 0 State.reset) = .refused (.reservedCommand 6) := by
  refine ⟨rfl, rfl, ?_, rfl⟩
  have h : (given 2 128 State.reset).phase.port = none := rfl
  rw [step_at_host rfl h]
  rfl

/-- Each writer of `packet_number`. -/
theorem witness_PacketNumberWriters :
    (∃ t, step (given 0 0 { State.reset with packetNumber := 3 }) = .next t ∧ t.packetNumber ≠ 3) ∧
    (∃ t, step (writes { rxAt .rxAck with packetNumber := 255 }) = .next t ∧ t.packetNumber ≠ 255) ∧
    (∃ t, step (reads 0x06 { txAt .txReply 128 with packetNumber := 255 }) = .next t ∧ t.packetNumber ≠ 255) :=
  ⟨⟨_, rfl, by decide⟩, ⟨_, rfl, by decide⟩, _, rfl, by decide⟩

/-- Each setter of `handshake_done`, and one that clears it. -/
theorem witness_HandshakeFlagWriters :
    (∃ t, step (writes { rxAt .rxHsNak with handshakeDone := false }) = .next t ∧ t.handshakeDone = true) ∧
    (∃ t, step (reads 0x15 { txAt .txHandshake 0 with handshakeDone := false }) = .next t ∧ t.handshakeDone = true) ∧
    (∃ t, step (given 3 0 (rxAt .terminated)) = .next t ∧ t.handshakeDone = false) :=
  ⟨⟨_, rfl, rfl⟩, ⟨_, rfl, rfl⟩, _, rfl, rfl⟩

/-- Each way into Terminated, and one out of it. -/
theorem witness_TerminatedFlagWriters :
    (∃ t, step (writes (rxAt .rxEotAck)) = .next t ∧ t.phase = .terminated) ∧
    (∃ t, step (reads 0x06 (txAt .txEot2 0)) = .next t ∧ t.phase = .terminated) ∧
    (∃ t, step (given 4 0 (txAt .terminated 0)) = .next t ∧ t.phase ≠ .terminated) :=
  ⟨⟨_, rfl, rfl⟩, ⟨_, rfl, rfl⟩, _, rfl, by decide⟩

/-- A data read and a host write that change `x`. -/
theorem witness_PacketBufferWriters :
    (∃ t, step (reads 0x55 (rxAt (.rxData 127))) = .next t ∧ t.x.get 127 ≠ (rxAt (.rxData 127)).x.get 127) ∧
    (∃ t, step { State.reset with host := [.writeX 0 0x55] } = .next t ∧ t.x.get 0 ≠ State.reset.x.get 0) :=
  ⟨⟨_, rfl, by decide⟩, _, rfl, by decide⟩

/-- A step that ends a command, a packet command that ends as it is given, and NEW after a command has ended. -/
theorem witness_ResultWrittenAtTheEndOnly :
    (∃ t, step (reads 0x18 (rxAt .rxHeader)) = .next t ∧ (rxAt .rxHeader).resetPin = false ∧ (rxAt .rxHeader).busy = true ∧
      t.busy = false ∧ t.result ≠ (rxAt .rxHeader).result) ∧
    (∃ t, step (given 1 127 State.reset) = .next t ∧ t.busy = false ∧ t.result ≠ State.reset.result) ∧
    (∃ t, step (given 0 0 { rxAt .idle with resultValid := true }) = .next t ∧ t.resultValid ≠ true) :=
  ⟨⟨_, rfl, rfl, rfl, rfl, by decide⟩, ⟨_, rfl, rfl, by decide⟩, _, rfl, by decide⟩

/-- R32: a host write leaves RESULT as it stands. -/
theorem test_host_write_keeps_result :
    after (step { rxAt .idle with host := [.writeX 3 0x55], result := .ok 128, resultValid := true })
      (fun t => (t.result, t.resultValid, t.x.get 3)) = some (.ok 128, true, 0x55) := by decide

theorem witness_StreamsMoveOnlyAtTheirPort :
    (∃ t, step (reads 0x01 (rxAt .rxHeader)) = .next t ∧ t.chanRd ≠ [.byte 0x01]) ∧
    (∃ t, step (writes (txAt .txSoh 128)) = .next t ∧ t.chanWr ≠ []) :=
  ⟨⟨_, rfl, by decide⟩, _, rfl, by decide⟩

theorem witness_ReceiveCountsItsSink :
    ∃ t, step { rxAt .rcSink with cmd := .receive, sinkAns := [.accepted] } = .next t ∧ t.total = 128 ∧
      (rxAt .rcSink).resetPin = false ∧ (rxAt .rcSink).busy = true := ⟨_, rfl, rfl, rfl, rfl⟩

/-- The invariant's parts, unfolded for the witnesses below. -/
theorem inv_iff (s : State) : s.Inv ↔ CountersInRange s ∧ ServesItsRole s ∧ HandshakeFirst s ∧ OperandChecked s ∧ BufferFilled s ∧
    ResultSound s := Iff.rfl

/-- A receiver at its header read and a sender at its reply read meet the invariant. -/
theorem inv_rx : (reads 0xFF (rxAt .rxHeader)).Inv :=
  ⟨by decide, by decide, by decide, by decide, fun _ h => absurd h (Nat.not_lt_zero _), by decide⟩

theorem inv_tx (a o : Nat) (c : Cmd) (r : List ReadAnswer) (ha : 1 ≤ a ∧ a ≤ 10) (ho : o ≤ 10) (hc : c = .txPacket ∨ c = .transmit) :
    ({ txAt .txReply 128 with attempt := a, outer := o, cmd := c, chanRd := r } : State).Inv := by
  refine ⟨⟨ha.2, ho, Nat.zero_le _, by simp [txAt]⟩, ⟨.inr rfl, by simp [txAt, Phase.owner], fun _ => hc, by simp [txAt],
    by simp [txAt]⟩, ⟨by simp [txAt, Phase.inHandshake], fun _ _ _ => rfl⟩, ⟨by simp [txAt, Phase.owner], fun _ => ⟨rfl, ha.1⟩,
    by simp [txAt, Phase.inEot], by simp [txAt], by simp [txAt]⟩, fun i _ => all_written i, ⟨fun _ => rfl, by simp [txAt]⟩⟩

/-- A receiver's error, the tenth NAK, and the tenth interrupted TX_PACKET of a chunk. -/
theorem witness_RetryExhaustionIsTheSendersOnly :
    (∃ t, (reads 0xFF (rxAt .rxHeader)).Inv ∧ step (reads 0xFF (rxAt .rxHeader)) = .next t ∧
      (rxAt .rxHeader).busy = true ∧ t.busy = false ∧ (rxAt .rxHeader).phase.owner = some .receiver) ∧
    (∃ t, ({ txAt .txReply 128 with attempt := 10, outer := 0, cmd := .txPacket, chanRd := [.byte 0x15] } : State).Inv ∧
      step { txAt .txReply 128 with attempt := 10, outer := 0, cmd := .txPacket, chanRd := [.byte 0x15] } = .next t ∧
      (txAt .txReply 128).busy = true ∧ t.busy = false ∧ t.result = .err (.retryExhausted .inner)) ∧
    (∃ t, ({ txAt .txReply 128 with attempt := 1, outer := 10, cmd := .transmit, chanRd := [.fail .interrupted] } : State).Inv ∧
      step { txAt .txReply 128 with attempt := 1, outer := 10, cmd := .transmit, chanRd := [.fail .interrupted] } = .next t ∧
      t.busy = false ∧ t.result = .err (.retryExhausted .outer)) :=
  ⟨⟨_, inv_rx, rfl, rfl, rfl, rfl⟩, ⟨_, inv_tx _ _ _ _ (by decide) (by decide) (.inl rfl), rfl, rfl, rfl, rfl⟩,
    _, inv_tx _ _ _ _ (by decide) (by decide) (.inr rfl), rfl, rfl, rfl⟩

theorem witness_EveryStepKeepsTheInvariant :
    ∃ t, (reads 0xFF (rxAt .rxHeader)).Inv ∧ step (reads 0xFF (rxAt .rxHeader)) = .next t := ⟨_, inv_rx, rfl⟩

end Sys2Proof.Tests
end

section
/-! SUPPORT. The invariant of `Safety.lean` is kept by every step: what it comes to in each class of phases, then one lemma per
shared operation of `Machine/Ops.lean`, then one per kind of step. -/

namespace Sys2Proof.Machine

/-! ### The parts of the invariant -/

/-- The part of the invariant that speaks of no phase: all that is left of it once a command has ended with an error. -/
def Standing (s : State) : Prop :=
  s.attempt ≤ 10 ∧ s.outer ≤ 10 ∧ s.n ≤ 128 ∧ (s.cmd = .receive → s.total % 128 = 0)

/-- What the invariant needs of an engine that starts RX_PACKET (R130, R131, R245). -/
def ReadyToReceive (s : State) : Prop :=
  Standing s ∧ s.role = some .receiver ∧ (s.cmd = .rxPacket ∨ s.cmd = .receive) ∧ 128 ≤ s.len

/-- What the invariant needs of an engine that starts TX_PACKET (R160, R161, R174, R245). -/
def ReadyToSend (s : State) : Prop :=
  Standing s ∧ s.role = some .sender ∧ (s.cmd = .txPacket ∨ s.cmd = .transmit) ∧
    (s.len = 0 ∨ s.len = 128 ∧ ∀ i, s.xWritten.get i = true)

/-- A sender's phase is the source read, in the handshake, in a frame or in the EOT exchange. -/
theorem Phase.sender_cases {p : Phase} (hp : p.owner = some .sender) :
    p = .trSrc ∨ (p = .txHandshake ∨ p = .txHandshakeCan) ∨ p.inFrame = true ∨ p.inEot = true := by
  cases p <;> simp_all [Phase.owner, Phase.inFrame, Phase.inEot]

theorem filled_of_inFrame {s : State} (hp : s.phase.inFrame = true) : s.filled = 128 := by
  unfold State.filled
  split <;> simp_all [Phase.inFrame]

theorem filled_of_inEot {s : State} (hp : s.phase.inEot = true) : s.filled = 0 := by
  cases hq : s.phase <;> simp_all [State.filled, Phase.inFrame, Phase.inEot]

/-! ### What the invariant gives -/

namespace State.Inv

variable {s : State} (h : s.Inv)
include h

theorem standing : Standing s := by
  obtain ⟨⟨ha, ho, hn, -⟩, -, -, -, -, ht, -⟩ := h
  exact ⟨ha, ho, hn, ht⟩

theorem bufferFilled : BufferFilled s := by
  obtain ⟨-, -, -, -, hb, -⟩ := h
  exact hb

/-- Any phase of RX_PACKET or RECEIVE has what its start needed. -/
theorem readyToReceive (hp : s.phase.owner = some .receiver) : ReadyToReceive s := by
  have hst := h.standing
  obtain ⟨-, ⟨hr, hc, -⟩, -, ⟨hl, -⟩, -⟩ := h
  exact ⟨hst, by simpa [hp, eq_comm] using hr, hc hp, hl hp⟩

/-- Any phase of TX_PACKET has what its start needed: in TRANSMIT it can be started again (R203). -/
theorem readyToSend (hp : s.phase.owner = some .sender) (hs : s.phase ≠ .trSrc) : ReadyToSend s := by
  have hst := h.standing
  obtain ⟨-, ⟨hr, -, hc, -⟩, -, ⟨-, hf, he, hh, hhc⟩, hb, -⟩ := h
  refine ⟨hst, by simpa [hp, eq_comm] using hr, hc hp, ?_⟩
  have whole (hfull : s.filled = 128) (i : Fin dataLen) : s.xWritten.get i = true := hb i (by rw [hfull]; exact i.isLt)
  rcases Phase.sender_cases hp with hq | hq | hq | hq
  · exact absurd hq hs
  · have hl : s.len = 0 ∨ s.len = 128 := hq.elim hh hhc
    refine hl.imp_right fun hl => ⟨hl, whole ?_⟩
    rcases hq with hq | hq <;> simp [State.filled, hq, hl]
  · exact .inr ⟨(hf hq).1, whole (filled_of_inFrame hq)⟩
  · exact .inl (he hq)

/-- Inside a packet command the handshake is pending exactly in its own phases (R28). -/
theorem handshakeDone_eq (hi : s.phase ≠ .idle) (hs : s.phase ≠ .trSrc) : s.handshakeDone = !s.phase.inHandshake := by
  obtain ⟨-, -, ⟨hp, hd⟩, -⟩ := h
  cases hq : s.phase.inHandshake with
  | false => exact hd hq hi hs
  | true => exact hp hq

/-- At a channel port of TRANSMIT the engine is inside TX_PACKET. -/
theorem sender_of_transmit (hc : s.cmd = .transmit) (hp : s.phase.port = some .chanRd ∨ s.phase.port = some .chanWr) :
    s.phase.owner = some .sender ∧ s.phase ≠ .trSrc := by
  obtain ⟨-, ⟨-, hrx, -⟩, -⟩ := h
  have hnot : s.phase.owner ≠ some .receiver := fun ho => by simpa [hc] using hrx ho
  revert hp hnot
  cases s.phase <;> simp [Phase.port, Phase.owner]

end State.Inv

/-! ### What gives the invariant, by the class of the phase -/

theorem inv_of_idle {s : State} (hp : s.phase = .idle) (h : Standing s) : s.Inv := by
  obtain ⟨ha, ho, hn, ht⟩ := h
  exact ⟨⟨ha, ho, hn, by simp [hp]⟩, by simp [ServesItsRole, hp, Phase.owner], by simp [HandshakeFirst, hp, Phase.inHandshake],
    by simp [OperandChecked, hp, Phase.owner, Phase.inFrame, Phase.inEot],
    by simp [BufferFilled, State.filled, hp, Phase.inFrame], ht, by simp [hp]⟩

theorem inv_of_terminated {s : State} (hp : s.phase = .terminated) (h : Standing s) (hd : s.handshakeDone = true)
    (hr : s.resultValid = true ∧ s.result.isOk = true) : s.Inv := by
  obtain ⟨ha, ho, hn, ht⟩ := h
  exact ⟨⟨ha, ho, hn, by simp [hp]⟩, by simp [ServesItsRole, hp, Phase.owner], by simp [HandshakeFirst, hp, Phase.inHandshake, hd],
    by simp [OperandChecked, hp, Phase.owner, Phase.inFrame, Phase.inEot],
    by simp [BufferFilled, State.filled, hp, Phase.inFrame], ht, fun _ => hr⟩

theorem inv_of_receiver {s : State} (hp : s.phase.owner = some .receiver) (h : ReadyToReceive s)
    (hd : s.handshakeDone = !s.phase.inHandshake) (hk : s.phase = .rcSink → s.cmd = .receive) (hb : BufferFilled s) : s.Inv := by
  obtain ⟨⟨ha, ho, hn, ht⟩, hr, hc, hl⟩ := h
  have hs : s.phase ≠ .trSrc := fun e => by simp [e, Phase.owner] at hp
  have hnt : s.phase ≠ .terminated := fun e => by simp [e, Phase.owner] at hp
  refine ⟨⟨ha, ho, hn, fun e => absurd e hs⟩, ?_, ?_, ?_, hb, ht, fun e => absurd e hnt⟩
  · exact ⟨.inr (hp.trans hr.symm), fun _ => hc, fun e => by simp [hp] at e, hk, fun e => absurd e hs⟩
  · simp +contextual [HandshakeFirst, hd]
  · revert hp
    cases hq : s.phase <;> simp [OperandChecked, hq, Phase.owner, Phase.inFrame, Phase.inEot, hl]

theorem inv_of_sender {s : State} (hp : s.phase.owner = some .sender) (hs : s.phase ≠ .trSrc) (h : ReadyToSend s)
    (hd : s.handshakeDone = !s.phase.inHandshake) (hf : s.phase.inFrame = true → s.len = 128 ∧ 1 ≤ s.attempt)
    (he : s.phase.inEot = true → s.len = 0) : s.Inv := by
  obtain ⟨⟨ha, ho, hn, ht⟩, hr, hc, hl⟩ := h
  have hnt : s.phase ≠ .terminated := fun e => by simp [e, Phase.owner] at hp
  have hnk : s.phase ≠ .rcSink := fun e => by simp [e, Phase.owner] at hp
  have hl' : s.len = 0 ∨ s.len = 128 := hl.imp_right And.left
  have hb : BufferFilled s := by
    rcases hl with hl | ⟨-, hw⟩
    · have hz : s.filled = 0 := by
        rcases Phase.sender_cases hp with hq | hq | hq | hq
        · exact absurd hq hs
        · rcases hq with hq | hq <;> simp [State.filled, hq, hl]
        · simp [hl] at hf
          simp [hf] at hq
        · exact filled_of_inEot hq
      simp [BufferFilled, hz]
    · exact fun i _ => hw i
  refine ⟨⟨ha, ho, hn, fun e => absurd e hs⟩, ?_, ?_, ?_, hb, ht, fun e => absurd e hnt⟩
  · exact ⟨.inr (hp.trans hr.symm), fun e => by simp [hp] at e, fun _ => hc, fun e => absurd e hnk, fun e => absurd e hs⟩
  · simp +contextual [HandshakeFirst, hd]
  · exact ⟨fun e => by simp [hp] at e, hf, he, fun _ => hl', fun _ => hl'⟩

theorem inv_of_source {s : State} (hp : s.phase = .trSrc) (h : Standing s) (hr : s.role = some .sender) (hc : s.cmd = .transmit)
    (hn : s.n < 128) (hw : ∀ i : Fin dataLen, i.val < s.n → s.xWritten.get i = true) : s.Inv := by
  obtain ⟨ha, ho, hn', ht⟩ := h
  exact ⟨⟨ha, ho, hn', fun _ => hn⟩, by simp [ServesItsRole, hp, Phase.owner, hr, hc],
    by simp [HandshakeFirst, hp, Phase.inHandshake], by simp [OperandChecked, hp, Phase.owner, Phase.inFrame, Phase.inEot],
    by simpa [BufferFilled, State.filled, hp] using hw, ht, by simp [hp]⟩

/-! ### Ending and starting a command -/

theorem inv_endCommand_idle {s : State} (h : Standing s) (r : CmdResult) : (endCommand r .idle s).Inv :=
  inv_of_idle rfl h

theorem inv_transferEnded {s : State} (h : Standing s) (hd : s.handshakeDone = true) : (transferEnded s).Inv := by
  unfold transferEnded
  split <;> exact inv_of_terminated rfl h hd ⟨rfl, rfl⟩

theorem inv_startRx {s : State} (h : ReadyToReceive s) : (startRx s).Inv := by
  rcases startRx_cases s with ⟨hd, he⟩ | ⟨hd, he⟩ <;> rw [he]
  · exact inv_of_receiver rfl h hd nofun (by simp [BufferFilled, State.filled, Phase.inFrame])
  · exact inv_of_receiver rfl h hd nofun (by simp [BufferFilled, State.filled, Phase.inFrame])

theorem inv_startTx {s : State} (h : ReadyToSend s) : (startTx s).Inv := by
  rcases startTx_cases s with ⟨hd, he⟩ | ⟨hd, h0, he⟩ | ⟨hd, h0, he⟩ <;> rw [he]
  · exact inv_of_sender rfl nofun h hd nofun nofun
  · exact inv_of_sender rfl nofun h hd nofun fun _ => h0
  · obtain ⟨⟨-, hst⟩, hr, hc, hl⟩ := h
    exact inv_of_sender rfl nofun ⟨⟨by simp, hst⟩, hr, hc, hl⟩ hd (fun _ => ⟨(hl.resolve_left h0).1, Nat.le_refl 1⟩) nofun

theorem afterHandshake_eq_startTx {s : State} (hd : s.handshakeDone = true) : afterHandshake s = startTx s := by
  simp [startTx, hd]

/-- An error at a channel port: the command ends, or TRANSMIT issues its chunk again (R203). -/
theorem inv_raise {s : State} (h : s.Inv) (hp : s.phase.port = some .chanRd ∨ s.phase.port = some .chanWr) (e : CmdError) :
    (raise e s).Inv := by
  rcases raise_cases e s with ⟨-, he⟩ | ⟨-, -, he⟩ | ⟨hr, ho, he⟩ <;> rw [he]
  · exact inv_endCommand_idle h.standing _
  · exact inv_endCommand_idle h.standing _
  · obtain ⟨hc, -⟩ := (outerRetry_iff e s).mp hr
    obtain ⟨hs, hsrc⟩ := h.sender_of_transmit hc hp
    obtain ⟨⟨ha, hout, hn, ht⟩, hrest⟩ := h.readyToSend hs hsrc
    exact inv_startTx ⟨⟨ha, by dsimp only; omega, hn, ht⟩, hrest⟩

/-! ### Going on inside a packet command -/

/-- `p` belongs to the same part of the same packet command as `q`: the invariant asks of it nothing new, but of the entries of `x`
and of RECEIVE's own sink write. -/
def Phase.continues (q p : Phase) : Bool :=
  q.owner.isSome && p.owner == q.owner && p.inHandshake == q.inHandshake && p.inFrame == q.inFrame && p.inEot == q.inEot &&
    !(q == .trSrc) && !(p == .trSrc)

/-- How many entries of `x` the packet being received has filled (R138). -/
def Phase.received : Phase → Nat
  | .rxData i => i.val
  | .rxCksum => 128
  | .rxAck => 128
  | .rxNak => 128
  | .rcSink => 128
  | _ => 0

/-- `p` continues `q` with the entries of `x` that `q` had, inside the packet command. -/
def Phase.goesOnTo (q p : Phase) : Bool := q.continues p && !(p == .rcSink) && decide (p.received ≤ q.received)

theorem filled_of_receiver {s : State} (hp : s.phase.owner = some .receiver) : s.filled = s.phase.received := by
  revert hp
  cases hq : s.phase <;> simp [State.filled, hq, Phase.owner, Phase.inFrame, Phase.received]

theorem inv_goto_of_bufferFilled {s : State} {p : Phase} (h : s.Inv) (hp : s.phase.continues p = true)
    (hk : p = .rcSink → s.cmd = .receive) (hb : s.phase.owner = some .receiver → BufferFilled (s.goto p)) : (s.goto p).Inv := by
  simp only [Phase.continues, Bool.and_eq_true, beq_iff_eq, Bool.not_eq_true', beq_eq_false_iff_ne] at hp
  obtain ⟨⟨⟨⟨⟨⟨hq, ho⟩, hh⟩, hf⟩, he⟩, hsq⟩, hsp⟩ := hp
  have hd : (s.goto p).handshakeDone = !(s.goto p).phase.inHandshake := by
    rw [goto_phase, hh]
    exact h.handshakeDone_eq (fun e => by simp [e, Phase.owner] at hq) hsq
  obtain ⟨r, hr⟩ := Option.isSome_iff_exists.mp hq
  cases r with
  | receiver => exact inv_of_receiver (ho.trans hr) (h.readyToReceive hr) hd hk (hb hr)
  | sender =>
    have hready := h.readyToSend hr hsq
    obtain ⟨-, -, -, ⟨-, hlf, hle, -⟩, -⟩ := h
    exact inv_of_sender (ho.trans hr) hsp hready hd (fun e => hlf (hf ▸ e)) (fun e => hle (he ▸ e))

theorem inv_goto {s : State} {q p : Phase} (h : s.Inv) (hq : s.phase = q) (hp : q.goesOnTo p = true) : (s.goto p).Inv := by
  subst hq
  simp only [Phase.goesOnTo, Bool.and_eq_true, decide_eq_true_eq, Bool.not_eq_true', beq_eq_false_iff_ne] at hp
  obtain ⟨⟨hc, hk⟩, hf⟩ := hp
  refine inv_goto_of_bufferFilled h hc (fun e => absurd e hk) fun ho i hi => ?_
  have hop : p.owner = some .receiver := by
    simp only [Phase.continues, Bool.and_eq_true, beq_iff_eq] at hc
    obtain ⟨⟨⟨⟨⟨⟨-, hop⟩, -⟩, -⟩, -⟩, -⟩, -⟩ := hc
    exact hop.trans ho
  rw [filled_of_receiver hop, goto_phase] at hi
  exact h.bufferFilled i (by rw [filled_of_receiver ho]; omega)

theorem inv_violate {s : State} {q p : Phase} {emit : Bool} {site : Site} (h : s.Inv) (hq : s.phase = q)
    (hp : q.goesOnTo p = true) : (violate emit p site s).Inv := by
  cases emit with
  | false => simpa [violate] using inv_endCommand_idle h.standing _
  | true => simpa [violate] using inv_goto h hq hp

theorem inv_expectByte {s m v : State} (h : s.Inv) (e b : Byte) (site : Site) (hm : m.Inv) (hv : v.Inv) :
    (expectByte e b site m v s).Inv := by
  rcases expectByte_cases e b site m v s with ⟨-, he⟩ | ⟨-, -, he⟩ | ⟨-, -, he⟩ <;> rw [he]
  · exact hm
  · exact inv_endCommand_idle h.standing _
  · exact hv

/-- `return Ok(128)` of RX_PACKET: RECEIVE goes on to the sink, with a whole packet in `x`. -/
theorem inv_packetReceived {s : State} (h : s.Inv) (hp : s.phase = .rxAck) : (packetReceived s).Inv := by
  unfold packetReceived
  split
  · next hc =>
    refine inv_goto_of_bufferFilled h (by rw [hp]; rfl) (fun _ => hc) fun _ => ?_
    simpa [BufferFilled, State.filled, hp] using h.bufferFilled
  all_goals exact inv_endCommand_idle h.standing _

/-- `return Ok(128)` of TX_PACKET: TRANSMIT goes on to the next chunk, with none of it in `x`. -/
theorem inv_packetSent {s : State} (h : s.Inv) (hp : s.phase = .txReply) : (packetSent s).Inv := by
  have hst := h.standing
  unfold packetSent
  split
  · next hc =>
    obtain ⟨-, hr, -⟩ := h.readyToSend (by rw [hp]; rfl) (by simp [hp])
    obtain ⟨ha, ho, -, -⟩ := hst
    exact inv_of_source rfl ⟨ha, ho, by simp, by simp [hc]⟩ hr hc (by simp) (by simp)
  all_goals exact inv_endCommand_idle hst _

/-! ### A channel read -/

theorem inv_takeHeader {s : State} (h : s.Inv) (hp : s.phase = .rxHeader) (b : Byte) : (takeHeader b s).Inv := by
  unfold takeHeader
  split
  · exact inv_goto h hp rfl
  split
  · exact inv_goto h hp rfl
  split <;> exact inv_raise h (by simp [hp, Phase.port]) _

/-- A written packet-buffer register is marked so (R23). -/
theorem setX_xWritten_get_same (s : State) (i : Fin dataLen) (v : Byte) : (s.setX i v).xWritten.get i = true := by
  simp [Vector.get_eq_getElem]

/-- A write of one packet-buffer register leaves alone which others are written. -/
theorem setX_xWritten_get_other (s : State) (i j : Fin dataLen) (v : Byte) (h : j ≠ i) :
    (s.setX i v).xWritten.get j = s.xWritten.get j := by
  have h' : i.val ≠ j.val := fun e => h (Fin.ext e.symm)
  simp [Vector.get_eq_getElem, h']

theorem setX_keeps_written {s : State} (i : Fin dataLen) (v : Byte) (j : Fin dataLen) (h : j = i ∨ s.xWritten.get j = true) :
    (s.setX i v).xWritten.get j = true := by
  by_cases hj : j = i
  · rw [hj, setX_xWritten_get_same]
  · rw [setX_xWritten_get_other s i j v hj]
    exact h.resolve_left hj

theorem inv_setX {s : State} (h : s.Inv) (i : Fin dataLen) (v : Byte) : (s.setX i v).Inv := by
  obtain ⟨hc, hr, hh, ho, hb, hs⟩ := h
  exact ⟨hc, hr, hh, ho, fun j hj => setX_keeps_written i v j (.inr (hb j hj)), hs⟩

theorem filled_nextRxData (s : State) (i : Fin dataLen) : (s.goto (nextRxData i)).filled = i.val + 1 := by
  unfold nextRxData
  split
  · rfl
  · next hlast =>
    have := i.isLt
    simp only [State.filled, goto_phase, dataLen_eq] at hlast this ⊢
    omega

theorem continues_nextRxData (i : Fin dataLen) : (Phase.rxData i).continues (nextRxData i) = true := by
  unfold nextRxData
  split <;> rfl

/-- One more entry of `x` is filled by each data byte (R138). -/
theorem inv_takeData {s : State} {i : Fin dataLen} (h : s.Inv) (hp : s.phase = .rxData i) (b : Byte) : (takeData i b s).Inv := by
  refine inv_goto_of_bufferFilled (inv_setX h i b) (by rw [setX_phase, hp]; exact continues_nextRxData i) ?_ fun _ j hj => ?_
  · unfold nextRxData
    split <;> nofun
  · rw [filled_nextRxData] at hj
    have hb := h.bufferFilled
    simp only [BufferFilled, State.filled, hp] at hb
    exact setX_keeps_written i b j ((Nat.lt_succ_iff_lt_or_eq.mp hj).symm.imp Fin.ext (hb j))

theorem inv_takeChecksum {s : State} (h : s.Inv) (hp : s.phase = .rxCksum) (b : Byte) : (takeChecksum b s).Inv := by
  have go {p : Phase} (hc : Phase.rxCksum.goesOnTo p = true) : ({ s with acc := sum8 s.x.toList, phase := p } : State).Inv :=
    inv_goto h hp hc
  unfold takeChecksum
  split <;> exact go rfl

theorem inv_takeReply {s : State} (h : s.Inv) (hp : s.phase = .txReply) (b : Byte) : (takeReply b s).Inv := by
  have hport : s.phase.port = some .chanRd ∨ s.phase.port = some .chanWr := by simp [hp, Phase.port]
  unfold takeReply
  split
  · exact inv_packetSent (s := { s with packetNumber := nextPacket s.packetNumber }) h hp
  split
  · split
    · exact inv_raise h hport _
    · next hne =>
      have hready := h.readyToSend (by rw [hp]; rfl) (by simp [hp])
      have hd := h.handshakeDone_eq (by simp [hp]) (by simp [hp])
      obtain ⟨⟨ha, hst⟩, hrest⟩ := hready
      obtain ⟨-, -, -, ⟨-, hf, -⟩, -⟩ := h
      rw [hp] at hd hf
      exact inv_of_sender rfl nofun ⟨⟨by simp at hne ⊢; omega, hst⟩, hrest⟩ hd (fun _ => ⟨(hf rfl).1, by simp⟩) nofun
  split
  · exact inv_raise h hport _
  · exact inv_violate h hp rfl

/-- The handshake NAK read: TX_PACKET goes on (R162). -/
theorem inv_handshakeRead {s : State} (h : s.Inv) (hp : s.phase = .txHandshake) :
    (afterHandshake { s with handshakeDone := true }).Inv := by
  rw [afterHandshake_eq_startTx rfl]
  exact inv_startTx (s := { s with handshakeDone := true }) (h.readyToSend (by rw [hp]; rfl) (by simp [hp]))

theorem inv_takeByte {s : State} (h : s.Inv) (b : Byte) : (takeByte b s).Inv := by
  unfold takeByte
  split
  case h_1 hp => exact inv_takeHeader h hp b
  case h_2 hp =>
    exact inv_expectByte h _ _ _ (inv_goto h hp rfl)
      (inv_goto h hp rfl)
  case h_3 hp =>
    exact inv_expectByte h _ _ _ (inv_goto h hp rfl)
      (inv_goto h hp rfl)
  case h_4 i hp => exact inv_takeData h hp b
  case h_5 hp => exact inv_takeChecksum h hp b
  case h_6 hp =>
    exact inv_expectByte h _ _ _ (inv_goto h hp rfl)
      (inv_violate h hp rfl)
  case h_7 hp =>
    exact inv_expectByte h _ _ _ (inv_handshakeRead h hp)
      (inv_violate h hp rfl)
  case h_8 hp =>
    exact inv_expectByte h _ _ _ (inv_goto h hp rfl)
      (inv_violate h hp rfl)
  case h_9 hp =>
    have hd : s.handshakeDone = true := by rw [h.handshakeDone_eq (by simp [hp]) (by simp [hp]), hp]; rfl
    exact inv_expectByte h _ _ _ (inv_transferEnded h.standing hd)
      (inv_violate h hp rfl)
  case h_10 hp => exact inv_takeReply h hp b
  case h_11 => exact h

theorem inv_readFailed {s : State} (h : s.Inv) (hp : s.phase.port = some .chanRd) (k : IoKind) : (readFailed k s).Inv := by
  unfold readFailed
  split
  · next i hi => exact inv_takeData h hi _
  · split
    · exact inv_raise h (.inl hp) _
    · exact h

/-! ### A channel write -/

theorem inv_byteWritten {s : State} (h : s.Inv) (hp : s.phase.port = some .chanWr) : (byteWritten s).Inv := by
  unfold byteWritten
  split
  case h_1 hq => exact inv_startRx (s := { s with handshakeDone := true }) (h.readyToReceive (by rw [hq]; rfl))
  case h_4 hq => exact inv_packetReceived (s := { s with packetNumber := nextPacket s.packetNumber }) h hq
  case h_8 hq => exact inv_transferEnded h.standing (by rw [h.handshakeDone_eq (by simp [hq]) (by simp [hq]), hq]; rfl)
  case h_17 i hq =>
    split
    · next hi =>
      rw [nextTxData, dif_pos hi]
      exact inv_goto h hq rfl
    · have hc : (s.goto .txCksum).Inv := inv_goto h hq rfl
      exact hc
  case h_20 => exact h
  case h_2 | h_3 | h_7 | h_9 | h_11 | h_13 | h_19 => exact inv_raise h (.inr hp) _
  case h_5 hq | h_6 hq | h_10 hq | h_12 hq | h_14 hq | h_15 hq | h_16 hq | h_18 hq => exact inv_goto h hq rfl

theorem inv_writeFailed {s : State} (h : s.Inv) (hp : s.phase.port = some .chanWr) (k : IoKind) : (writeFailed k s).Inv := by
  unfold writeFailed
  split
  · exact inv_raise h (.inr hp) _
  · exact h

/-! ### The source and the sink -/

theorem phase_eq_trSrc {s : State} (hp : s.phase.port = some .src) : s.phase = .trSrc := by
  revert hp
  cases s.phase <;> simp [Phase.port]

theorem phase_eq_rcSink {s : State} (hp : s.phase.port = some .sink) : s.phase = .rcSink := by
  revert hp
  cases s.phase <;> simp [Phase.port]

/-- The chunk in hand is padded, so all of `x` is written when TX_PACKET is issued (R174, R200). -/
theorem inv_chunkLoaded {s : State} (h : Standing s) (hr : s.role = some .sender) (hc : s.cmd = .transmit)
    (hw : ∀ i : Fin dataLen, i.val < s.n → s.xWritten.get i = true) : (chunkLoaded s).Inv := by
  obtain ⟨ha, ho, hn, ht⟩ := h
  unfold chunkLoaded
  split
  · exact inv_startTx ⟨⟨ha, ho, hn, ht⟩, hr, .inr hc, .inl rfl⟩
  · exact inv_startTx ⟨⟨ha, by simp, hn, ht⟩, hr, .inr hc, .inr ⟨rfl, writtenFrom_get hw⟩⟩

/-- What the invariant says of TRANSMIT's source read. -/
theorem State.Inv.atSource {s : State} (h : s.Inv) (hp : s.phase = .trSrc) :
    s.role = some .sender ∧ s.cmd = .transmit ∧ s.n < 128 ∧ ∀ i : Fin dataLen, i.val < s.n → s.xWritten.get i = true := by
  have hb := h.bufferFilled
  obtain ⟨⟨-, -, -, hn⟩, ⟨hr, -, -, -, hc⟩, -⟩ := h
  refine ⟨by simpa [hp, Phase.owner, eq_comm] using hr, hc hp, hn hp, ?_⟩
  simpa [BufferFilled, State.filled, hp] using hb

/-- The entries of a chunk below `n + 1` are written once the source byte has been put in `x[n]` (R200). -/
theorem written_setIfInBounds {w : Vector Bool dataLen} {n : Nat} (h : ∀ i : Fin dataLen, i.val < n → w.get i = true)
    (i : Fin dataLen) (hi : i.val < n + 1) : (w.setIfInBounds n true).get i = true := by
  simp only [Vector.get_eq_getElem, Vector.getElem_setIfInBounds] at h ⊢
  split
  · rfl
  · exact h i (by omega)

theorem inv_takeSourceByte {s : State} (h : s.Inv) (hp : s.phase = .trSrc) (b : Byte) : (takeSourceByte b s).Inv := by
  obtain ⟨hr, hc, hn, hw⟩ := h.atSource hp
  obtain ⟨ha, ho, -, ht⟩ := h.standing
  unfold takeSourceByte
  dsimp only
  split
  · next hlt => exact inv_of_source hp ⟨ha, ho, hn, ht⟩ hr hc hlt (written_setIfInBounds hw)
  · exact inv_chunkLoaded ⟨ha, ho, hn, ht⟩ hr hc (written_setIfInBounds hw)

/-- RECEIVE counts the whole packet its sink took, and issues RX_PACKET again (R195, R196). -/
theorem inv_sinkWritten {s : State} (h : s.Inv) (hp : s.phase = .rcSink) : (sinkWritten s).Inv := by
  obtain ⟨⟨ha, ho, hn, ht⟩, hr, hc, -⟩ := h.readyToReceive (by rw [hp]; rfl)
  exact inv_startRx ⟨⟨ha, ho, hn, fun e => by simpa using ht e⟩, hr, hc, Nat.le_refl 128⟩

/-! ### The host -/

theorem inv_freshEngine (s : State) : (freshEngine s).Inv := inv_of_idle rfl (by simp [Standing, State.reset])

/-- A command the engine accepts (R130, R160, R190, R195, R200). -/
theorem inv_command {op : BitVec 3} {arg : Nat} {i : Instr} {s t : State} (h : s.Inv) (hd : decode (.cmd op arg) = .ok i)
    (he : exec i s = .next t) : t.Inv := by
  obtain ⟨ha, ho, hn, -⟩ := h.standing
  rcases exec_command_cases hd he with ⟨-, -, rfl⟩ | ⟨-, -, -, rfl⟩ | ⟨-, -, href, rfl⟩ | ⟨-, -, rfl⟩ | ⟨-, -, rfl⟩
  · exact inv_freshEngine s
  · split
    · exact inv_endCommand_idle (s := { s with cmd := .rxPacket, len := arg, role := some .receiver }) ⟨ha, ho, hn, nofun⟩ _
    · next hcap => exact inv_startRx ⟨⟨ha, ho, hn, nofun⟩, rfl, .inl rfl, by simpa [rxBufferTooSmall] using hcap⟩
  · obtain ⟨-, -, hw⟩ := refusalTx_eq_none.mp href
    split
    · exact inv_endCommand_idle (s := { s with cmd := .txPacket, len := arg, role := some .sender }) ⟨ha, ho, hn, nofun⟩ _
    · next hlen =>
      have hlen' : arg = 0 ∨ arg = 128 := by simpa [txBadLength, or_iff_not_imp_left] using hlen
      refine inv_startTx ⟨⟨ha, ho, hn, nofun⟩, rfl, .inl rfl, hlen'.imp_right fun hl => ⟨hl, ?_⟩⟩
      exact (bufferWritten_iff s).mp (hw hl)
  · exact inv_startRx ⟨by simp [Standing, State.reset], rfl, .inr rfl, Nat.le_refl 128⟩
  · exact inv_of_source rfl (by simp [Standing, State.reset]) rfl rfl (by simp) (by simp)

/-! ### Every step -/

/-- Settles O60: the reset state is a fresh engine. -/
theorem resetMeetsTheInvariant : Obligations.ResetMeetsTheInvariant := inv_freshEngine State.reset

/-- Settles O59, by the kinds of step of `step_cases`: each operation keeps the invariant, and the streams a step moves before it are
not part of it. -/
theorem everyStepKeepsTheInvariant : Obligations.EveryStepKeepsTheInvariant := by
  intro s t h hstep
  rcases step_cases hstep with ⟨-, rfl⟩ | ⟨-, -, i, v, rest, -, rfl⟩ | ⟨-, -, op, arg, rest, i, -, hd, he⟩ |
    ⟨-, -, b, rest, -, rfl⟩ | ⟨-, hp, k, rest, -, rfl⟩ | ⟨-, hp, rest, -, rfl⟩ | ⟨-, hp, k, wentOut, rest, -, rfl⟩ |
    ⟨-, hp, -, rfl⟩ | ⟨-, hp, b, rest, -, rfl⟩ | ⟨-, -, k, rest, -, rfl⟩ | ⟨-, hp, rest, -, rfl⟩ | ⟨-, -, k, rest, -, rfl⟩
  case inl => exact inv_freshEngine s
  · exact inv_setX (s := { s with host := rest }) h i v
  · exact inv_command (s := { s with host := rest }) h hd he
  · exact inv_takeByte (s := { s with chanRd := rest }) h b
  · exact inv_readFailed (s := { s with chanRd := rest }) h hp k
  · exact inv_byteWritten (s := { s with chanWrAns := rest, chanWr := _ }) h hp
  · exact inv_writeFailed (s := { s with chanWrAns := rest, chanWr := _ }) h hp k
  · obtain ⟨hr, hc, -, hw⟩ := h.atSource (phase_eq_trSrc hp)
    exact inv_chunkLoaded h.standing hr hc hw
  · exact inv_takeSourceByte (s := { s with src := rest }) h (phase_eq_trSrc hp) b
  · rw [raise_ioFailure_src]
    exact inv_endCommand_idle (s := { s with src := rest }) h.standing _
  · exact inv_sinkWritten (s := { s with sinkAns := rest }) h (phase_eq_rcSink hp)
  · rw [raise_ioFailure_sink]
    exact inv_endCommand_idle (s := { s with sinkAns := rest }) h.standing _

end Sys2Proof.Machine
end

section
/-! SUPPORT. Who writes the registers the host sees (R22, R23, R28, R29, R32): what each operation leaves alone, one inversion of
`step` that names the writers, and from it the statements about each register. -/

namespace Sys2Proof.Machine

/-! ### What an operation inside a command does to the registers -/

/-- `packet_number`, `handshake_done` and `x` are the same. -/
def SameRegs (s t : State) : Prop := t.packetNumber = s.packetNumber ∧ t.handshakeDone = s.handshakeDone ∧ t.x = s.x

/-- The command goes on with RESULT as it was, or it has ended with a RESULT and the engine is Idle (R13, R32). -/
def ResultKept (s t : State) : Prop :=
  (t.busy = true ∧ t.result = s.result ∧ t.resultValid = s.resultValid) ∨ (t.phase = .idle ∧ t.resultValid = true)

/-- Nothing is written but counters and, at the end of a command, RESULT. -/
def Quiet (s t : State) : Prop := SameRegs s t ∧ ResultKept s t

/-- Nothing is written but `x` (R23). -/
def LoadsBuffer (s t : State) : Prop := Quiet { s with x := t.x } t

/-- Nothing is written but `handshake_done`, which is set (R28). -/
def SetsHandshake (s t : State) : Prop := Quiet { s with handshakeDone := true } t

/-- Nothing is written but `packet_number`, which is incremented (R22). -/
def AdvancesPacket (s t : State) : Prop := Quiet { s with packetNumber := nextPacket s.packetNumber } t

/-- The transfer has ended with a RESULT, and nothing else is written (R29). -/
def EndsTransfer (s t : State) : Prop := SameRegs s t ∧ t.phase = .terminated ∧ t.resultValid = true

theorem ResultKept.not_terminated {s t : State} (h : ResultKept s t) : t.phase ≠ .terminated := by
  rintro hp
  rcases h with ⟨hb, -⟩ | ⟨hi, -⟩
  · simp [State.busy, hp] at hb
  · simp [hp] at hi

theorem ResultKept.valid_of_ended {s t : State} (h : ResultKept s t) (hb : t.busy = false) : t.resultValid = true := by
  rcases h with ⟨hb', -⟩ | ⟨-, hv⟩
  · simp [hb] at hb'
  · exact hv

theorem ResultKept.ended_of_changed {s t : State} (h : ResultKept s t)
    (hc : t.result ≠ s.result ∨ t.resultValid ≠ s.resultValid) : t.busy = false := by
  rcases h with ⟨-, hr, hv⟩ | ⟨hi, -⟩
  · simp [hr, hv] at hc
  · simp [State.busy, hi]

theorem quiet_self {s : State} (h : s.busy = true) : Quiet s s := ⟨⟨rfl, rfl, rfl⟩, .inl ⟨h, rfl, rfl⟩⟩

theorem goto_quiet {p : Phase} (s : State) (h : (s.goto p).busy = true) : Quiet s (s.goto p) :=
  ⟨⟨rfl, rfl, rfl⟩, .inl ⟨h, rfl, rfl⟩⟩

theorem endCommand_quiet (r : CmdResult) (s : State) : Quiet s (endCommand r .idle s) := ⟨⟨rfl, rfl, rfl⟩, .inr ⟨rfl, rfl⟩⟩

theorem startRx_quiet (s : State) : Quiet s (startRx s) := by
  rcases startRx_cases s with ⟨-, h⟩ | ⟨-, h⟩ <;> rw [h] <;> exact goto_quiet s rfl

theorem startRx_busy (s : State) : (startRx s).busy = true := by
  rcases startRx_cases s with ⟨-, h⟩ | ⟨-, h⟩ <;> rw [h] <;> rfl

theorem startTx_busy (s : State) : (startTx s).busy = true := by
  rcases startTx_cases s with ⟨-, h⟩ | ⟨-, -, h⟩ | ⟨-, -, h⟩ <;> rw [h] <;> rfl

theorem startTx_quiet (s : State) : Quiet s (startTx s) := by
  rcases startTx_cases s with ⟨-, h⟩ | ⟨-, -, h⟩ | ⟨-, -, h⟩ <;> rw [h]
  · exact goto_quiet s rfl
  · exact goto_quiet s rfl
  · exact ⟨⟨rfl, rfl, rfl⟩, .inl ⟨rfl, rfl, rfl⟩⟩

theorem raise_quiet (e : CmdError) (s : State) : Quiet s (raise e s) := by
  rcases raise_cases e s with ⟨-, h⟩ | ⟨-, -, h⟩ | ⟨-, -, h⟩ <;> rw [h]
  · exact endCommand_quiet _ s
  · exact endCommand_quiet _ s
  · exact startTx_quiet { s with outer := s.outer + 1 }

theorem packetReceived_quiet (s : State) : Quiet s (packetReceived s) := by
  unfold packetReceived
  split
  · exact goto_quiet s rfl
  all_goals exact endCommand_quiet _ s

theorem packetSent_quiet (s : State) : Quiet s (packetSent s) := by
  unfold packetSent
  split
  · exact ⟨⟨rfl, rfl, rfl⟩, .inl ⟨rfl, rfl, rfl⟩⟩
  all_goals exact endCommand_quiet _ s

theorem transferEnded_endsTransfer (s : State) : EndsTransfer s (transferEnded s) := by
  unfold transferEnded
  split <;> exact ⟨⟨rfl, rfl, rfl⟩, rfl, rfl⟩

theorem violate_quiet (emit : Bool) (p : Phase) (site : Site) (s : State) (h : (s.goto p).busy = true) :
    Quiet s (violate emit p site s) := by
  cases emit with
  | false => exact raise_quiet _ s
  | true => exact goto_quiet s h

/-- An expected-byte site is quiet but for what its expected byte does. -/
theorem expectByte_quiet {s v : State} (e b : Byte) (site : Site) (m : State) (hv : Quiet s v) :
    (b = e ∧ expectByte e b site m v s = m) ∨ Quiet s (expectByte e b site m v s) := by
  rcases expectByte_cases e b site m v s with h | ⟨-, -, h⟩ | ⟨-, -, h⟩
  · exact .inl h
  · exact .inr (by rw [h]; exact endCommand_quiet _ s)
  · exact .inr (by rw [h]; exact hv)

/-- The same, where the expected byte only moves the phase on. -/
theorem expectByte_quiet_of_match {s m v : State} (e b : Byte) (site : Site) (hm : Quiet s m) (hv : Quiet s v) :
    Quiet s (expectByte e b site m v s) :=
  (expectByte_quiet e b site m hv).elim (fun ⟨_, h⟩ => by rw [h]; exact hm) id

theorem takeHeader_quiet (b : Byte) (s : State) : Quiet s (takeHeader b s) := by
  unfold takeHeader
  split
  · exact goto_quiet s rfl
  split
  · exact goto_quiet s rfl
  split <;> exact raise_quiet _ s

theorem takeData_loadsBuffer (i : Fin dataLen) (b : Byte) (s : State) : LoadsBuffer s (takeData i b s) := by
  refine ⟨⟨rfl, rfl, rfl⟩, .inl ⟨?_, rfl, rfl⟩⟩
  unfold takeData nextRxData
  split <;> rfl

theorem takeChecksum_quiet (b : Byte) (s : State) : Quiet s (takeChecksum b s) := by
  refine ⟨⟨rfl, rfl, rfl⟩, .inl ⟨?_, rfl, rfl⟩⟩
  unfold takeChecksum
  split <;> rfl

theorem takeReply_cases (b : Byte) (s : State) :
    (b = ackByte ∧ AdvancesPacket s (takeReply b s)) ∨ Quiet s (takeReply b s) := by
  unfold takeReply
  split
  · next hb => exact .inl ⟨hb, packetSent_quiet _⟩
  refine .inr ?_
  split
  · split
    · exact raise_quiet _ s
    · exact ⟨⟨rfl, rfl, rfl⟩, .inl ⟨rfl, rfl, rfl⟩⟩
  split
  · exact raise_quiet _ s
  · exact violate_quiet _ _ _ s rfl

theorem afterHandshake_setsHandshake (s : State) : SetsHandshake s (afterHandshake { s with handshakeDone := true }) := by
  rw [afterHandshake_eq_startTx rfl]
  exact startTx_quiet _

/-- A byte read writes a register at four sites only (R22, R23, R28, R29). -/
theorem takeByte_cases {s : State} (hb : s.busy = true) (b : Byte) :
    Quiet s (takeByte b s) ∨
    ((∃ i, s.phase = .rxData i) ∧ LoadsBuffer s (takeByte b s)) ∨
    (s.phase = .txHandshake ∧ b = nakByte ∧ SetsHandshake s (takeByte b s)) ∨
    (s.phase = .txReply ∧ b = ackByte ∧ AdvancesPacket s (takeByte b s)) ∨
    (s.phase = .txEot2 ∧ b = ackByte ∧ EndsTransfer s (takeByte b s)) := by
  unfold takeByte
  split
  case h_1 => exact .inl (takeHeader_quiet b s)
  case h_2 | h_3 => exact .inl (expectByte_quiet_of_match _ _ _ (goto_quiet s rfl) (goto_quiet s rfl))
  case h_4 i hp => exact .inr (.inl ⟨⟨i, hp⟩, takeData_loadsBuffer i b s⟩)
  case h_5 => exact .inl (takeChecksum_quiet b s)
  case h_6 | h_8 => exact .inl (expectByte_quiet_of_match _ _ _ (goto_quiet s rfl) (violate_quiet _ _ _ s rfl))
  case h_7 hp =>
    rcases expectByte_quiet nakByte b .txHandshake _ (violate_quiet _ .txHandshakeCan _ s rfl) with ⟨he, hm⟩ | hq
    · exact .inr (.inr (.inl ⟨hp, he, hm ▸ afterHandshake_setsHandshake s⟩))
    · exact .inl hq
  case h_9 hp =>
    rcases expectByte_quiet ackByte b .txEot2 _ (violate_quiet _ .txEot2Can _ s rfl) with ⟨he, hm⟩ | hq
    · exact .inr (.inr (.inr (.inr ⟨hp, he, hm ▸ transferEnded_endsTransfer s⟩)))
    · exact .inl hq
  case h_10 hp =>
    rcases takeReply_cases b s with ⟨he, ha⟩ | hq
    · exact .inr (.inr (.inr (.inl ⟨hp, he, ha⟩)))
    · exact .inl hq
  case h_11 => exact .inl (quiet_self hb)

theorem readFailed_cases {s : State} (hb : s.busy = true) (k : IoKind) :
    Quiet s (readFailed k s) ∨ ((∃ i, s.phase = .rxData i) ∧ LoadsBuffer s (readFailed k s)) := by
  unfold readFailed
  split
  · next i hp => exact .inr ⟨⟨i, hp⟩, takeData_loadsBuffer i canByte s⟩
  · split
    · exact .inl (raise_quiet _ s)
    · exact .inl (quiet_self hb)

/-- An accepted write writes a register at three sites only (R22, R28, R29). -/
theorem byteWritten_cases {s : State} (hb : s.busy = true) :
    Quiet s (byteWritten s) ∨
    (s.phase = .rxHsNak ∧ SetsHandshake s (byteWritten s)) ∨
    (s.phase = .rxAck ∧ AdvancesPacket s (byteWritten s)) ∨
    (s.phase = .rxEotAck ∧ EndsTransfer s (byteWritten s)) := by
  unfold byteWritten
  split
  case h_1 hp => exact .inr (.inl ⟨hp, goto_quiet { s with handshakeDone := true } rfl⟩)
  case h_4 hp => exact .inr (.inr (.inl ⟨hp, packetReceived_quiet _⟩))
  case h_8 hp => exact .inr (.inr (.inr ⟨hp, transferEnded_endsTransfer s⟩))
  case h_2 | h_3 | h_7 | h_9 | h_11 | h_13 | h_19 => exact .inl (raise_quiet _ s)
  case h_5 | h_6 | h_10 | h_12 | h_14 | h_15 | h_16 | h_18 => exact .inl (goto_quiet s rfl)
  case h_17 i hp =>
    split
    · next hi =>
      rw [nextTxData, dif_pos hi]
      exact .inl (goto_quiet s rfl)
    · exact .inl ⟨⟨rfl, rfl, rfl⟩, .inl ⟨rfl, rfl, rfl⟩⟩
  case h_20 => exact .inl (quiet_self hb)

theorem writeFailed_quiet {s : State} (hb : s.busy = true) (k : IoKind) : Quiet s (writeFailed k s) := by
  unfold writeFailed
  split
  · exact raise_quiet _ s
  · exact quiet_self hb

theorem LoadsBuffer.of_quiet {s u t : State} (h : Quiet u t) (hr : SameRegs { s with x := u.x } u)
    (hv : u.result = s.result ∧ u.resultValid = s.resultValid) : LoadsBuffer s t := by
  obtain ⟨⟨hp, hd, -⟩, hk⟩ := h
  obtain ⟨hp', hd', -⟩ := hr
  refine ⟨⟨hp.trans hp', hd.trans hd', rfl⟩, ?_⟩
  simpa [ResultKept, hv] using hk

theorem chunkLoaded_loadsBuffer (s : State) : LoadsBuffer s (chunkLoaded s) := by
  unfold chunkLoaded
  split <;> exact .of_quiet (startTx_quiet _) ⟨rfl, rfl, rfl⟩ ⟨rfl, rfl⟩

theorem takeSourceByte_loadsBuffer {s : State} (hb : s.busy = true) (b : Byte) : LoadsBuffer s (takeSourceByte b s) := by
  unfold takeSourceByte
  dsimp only
  split
  · exact ⟨⟨rfl, rfl, rfl⟩, .inl ⟨hb, rfl, rfl⟩⟩
  · exact chunkLoaded_loadsBuffer { s with
      x := s.x.setIfInBounds s.n b
      xWritten := s.xWritten.setIfInBounds s.n true
      n := s.n + 1
      pos := s.pos + 1 }

theorem sinkWritten_quiet (s : State) : Quiet s (sinkWritten s) := startRx_quiet _

/-! ### What a step does to the registers -/

/-- The ways a step writes, or does not write, `packet_number`, `handshake_done`, `x`, RESULT and `terminated`. -/
inductive RegisterEffect (s t : State) : Prop
  /-- the reset input (R262) -/
  | reset (hr : s.resetPin = true) (h : t = takeReset s)
  /-- a host write of `x` (R23) -/
  | hostWrite (hb : s.busy = false) (i : Fin dataLen) (v : Byte) (rest : List HostOp) (hh : s.host = .writeX i v :: rest)
    (h : t = { s with host := rest }.setX i v)
  /-- NEW, RECEIVE or TRANSMIT (R190, R195, R200) -/
  | fresh (hb : s.busy = false) (op : BitVec 3) (arg : Nat) (rest : List HostOp) (hh : s.host = .command op arg :: rest)
    (hop : op = 0 ∨ op = 3 ∨ op = 4) (h : SameRegs State.reset t) (hp : t.phase ≠ .terminated)
  /-- RX_PACKET or TX_PACKET begins, or ends as it is given (R131, R161) -/
  | packetCommand (hi : s.phase = .idle) (op : BitVec 3) (arg : Nat) (rest : List HostOp) (hh : s.host = .command op arg :: rest)
    (hop : op = 1 ∨ op = 2) (h : Quiet s t) (hc : t.busy = true ∨ ∃ c, t.result = .err (.contractViolation c))
  /-- a step inside a command that writes none of them, but RESULT if the command ends with it -/
  | quiet (hb : s.busy = true) (h : Quiet s t)
  /-- a data byte, or TRANSMIT's chunk (R138, R200) -/
  | load (hb : s.busy = true) (hp : (∃ i, s.phase = .rxData i) ∨ s.phase = .trSrc) (h : LoadsBuffer s t)
  /-- the handshake byte (R132, R162) -/
  | handshake (hb : s.busy = true)
    (hp : (s.phase = .rxHsNak ∧ ∃ rest, s.writeAnswers = .accepted :: rest) ∨
      (s.phase = .txHandshake ∧ ∃ rest, s.readAnswers = .byte nakByte :: rest)) (h : SetsHandshake s t)
  /-- a packet accepted or acknowledged (R141, R168) -/
  | packet (hb : s.busy = true)
    (hp : (s.phase = .rxAck ∧ ∃ rest, s.writeAnswers = .accepted :: rest) ∨
      (s.phase = .txReply ∧ ∃ rest, s.readAnswers = .byte ackByte :: rest)) (h : AdvancesPacket s t)
  /-- the final ACK (R136, R164) -/
  | transferEnd (hb : s.busy = true)
    (hp : (s.phase = .rxEotAck ∧ ∃ rest, s.writeAnswers = .accepted :: rest) ∨
      (s.phase = .txEot2 ∧ ∃ rest, s.readAnswers = .byte ackByte :: rest)) (h : EndsTransfer s t)

theorem busy_of_port {s : State} {p : Port} (h : s.phase.port = some p) : s.busy = true := by
  rw [busy_eq_port_isSome, h]
  rfl

theorem not_busy_of_port {s : State} (h : s.phase.port = none) : s.busy = false := by
  rw [busy_eq_port_isSome, h]
  rfl

/-- A command the engine accepts, by what it does to the registers. -/
theorem command_effect {s t : State} {op : BitVec 3} {arg : Nat} {rest : List HostOp} {i : Instr} (hp : s.phase.port = none)
    (hh : s.host = .command op arg :: rest) (hd : decode (.cmd op arg) = .ok i) (he : exec i { s with host := rest } = .next t) :
    RegisterEffect s t := by
  have hb := not_busy_of_port hp
  rcases exec_command_cases hd he with ⟨hop, -, rfl⟩ | ⟨hop, -, href, rfl⟩ | ⟨hop, -, href, rfl⟩ | ⟨hop, -, rfl⟩ | ⟨hop, -, rfl⟩
  · exact .fresh hb op arg rest hh (.inl hop) ⟨rfl, rfl, rfl⟩ nofun
  · obtain ⟨hi, -⟩ := refusalPacket_eq_none.mp href
    split
    · exact .packetCommand hi op arg rest hh (.inl hop) (endCommand_quiet _ s) (.inr ⟨_, rfl⟩)
    · exact .packetCommand hi op arg rest hh (.inl hop) (startRx_quiet _) (.inl (startRx_busy _))
  · obtain ⟨hi, -⟩ := refusalTx_eq_none.mp href
    split
    · exact .packetCommand hi op arg rest hh (.inr hop) (endCommand_quiet _ s) (.inr ⟨_, rfl⟩)
    · exact .packetCommand hi op arg rest hh (.inr hop) (startTx_quiet _) (.inl (startTx_busy _))
  · obtain ⟨hr, hk⟩ := startRx_quiet { freshEngine s with host := rest, cmd := .receive, role := some .receiver, len := 128, total := 0 }
    exact .fresh hb op arg rest hh (.inr (.inl hop)) hr hk.not_terminated
  · exact .fresh hb op arg rest hh (.inr (.inr hop)) ⟨rfl, rfl, rfl⟩ nofun

/-- Every step has one of these effects. -/
theorem step_registerEffect {s t : State} (h : step s = .next t) : RegisterEffect s t := by
  rcases step_cases h with ⟨hr, he⟩ | ⟨-, hp, i, v, rest, hh, he⟩ | ⟨-, hp, op, arg, rest, i, hh, hd, he⟩ |
    ⟨-, hp, b, rest, ha, rfl⟩ | ⟨-, hp, k, rest, -, rfl⟩ | ⟨-, hp, rest, ha, rfl⟩ | ⟨-, hp, k, wentOut, rest, -, rfl⟩ |
    ⟨-, hp, -, rfl⟩ | ⟨-, hp, b, rest, -, rfl⟩ | ⟨-, hp, k, rest, -, rfl⟩ | ⟨-, hp, rest, -, rfl⟩ | ⟨-, hp, k, rest, -, rfl⟩
  · exact .reset hr he
  · exact .hostWrite (not_busy_of_port hp) i v rest hh he
  · exact command_effect hp hh hd he
  all_goals have hb := busy_of_port hp
  · rcases takeByte_cases (s := { s with chanRd := rest }) hb b with hq | ⟨hq, he⟩ | ⟨hq, rfl, he⟩ | ⟨hq, rfl, he⟩ | ⟨hq, rfl, he⟩
    · exact .quiet hb hq
    · exact .load hb (.inl hq) he
    · exact .handshake hb (.inr ⟨hq, rest, ha⟩) he
    · exact .packet hb (.inr ⟨hq, rest, ha⟩) he
    · exact .transferEnd hb (.inr ⟨hq, rest, ha⟩) he
  · rcases readFailed_cases (s := { s with chanRd := rest }) hb k with hq | ⟨hq, he⟩
    · exact .quiet hb hq
    · exact .load hb (.inl hq) he
  · rcases byteWritten_cases (s := { s with chanWrAns := rest, chanWr := s.chanWr ++ s.offeredByte.toList }) hb with
      hq | ⟨hq, he⟩ | ⟨hq, he⟩ | ⟨hq, he⟩
    · exact .quiet hb hq
    · exact .handshake hb (.inl ⟨hq, rest, ha⟩) he
    · exact .packet hb (.inl ⟨hq, rest, ha⟩) he
    · exact .transferEnd hb (.inl ⟨hq, rest, ha⟩) he
  · exact .quiet hb (writeFailed_quiet (s := { s with chanWrAns := rest, chanWr := _ }) hb k)
  · exact .load hb (.inr (phase_eq_trSrc hp)) (chunkLoaded_loadsBuffer s)
  · exact .load hb (.inr (phase_eq_trSrc hp)) (takeSourceByte_loadsBuffer (s := { s with src := rest }) hb b)
  · exact .quiet hb (raise_quiet _ { s with src := rest })
  · exact .quiet hb (sinkWritten_quiet { s with sinkAns := rest })
  · exact .quiet hb (raise_quiet _ { s with sinkAns := rest })

/-! ### The writers of each register -/

theorem nextPacket_eq (n : Byte) : nextPacket n = BitVec.ofNat 8 ((n.toNat + 1) % 256) := by
  apply BitVec.eq_of_toNat_eq
  simp [nextPacket]

/-- Settles O51: two effects write `packet_number`, the start of a fresh engine and the increment. -/
theorem packetNumberWriters : Obligations.PacketNumberWriters := by
  intro s t hstep hne
  cases step_registerEffect hstep with
  | reset hr h => exact .inl ⟨by rw [h]; rfl, .inl hr⟩
  | hostWrite _ _ _ _ _ h => exact absurd (by rw [h]; rfl) hne
  | fresh hb op arg rest hh hop h =>
    obtain ⟨hpn, -⟩ := h
    exact .inl ⟨hpn, .inr ⟨op, arg, rest, hb, hh, hop⟩⟩
  | packet _ hp h =>
    obtain ⟨⟨hpn, -⟩, -⟩ := h
    exact .inr ⟨hpn.trans (nextPacket_eq _), hp⟩
  | packetCommand _ _ _ _ _ _ h | quiet _ h | load _ _ h | handshake _ _ h | transferEnd _ _ h =>
    obtain ⟨⟨hpn, -⟩, -⟩ := h
    exact absurd hpn hne

/-- Settles O52: the handshake sets the flag and a fresh engine clears it. -/
theorem handshakeFlagWriters : Obligations.HandshakeFlagWriters := by
  intro s t hstep
  have unchanged (hd : t.handshakeDone = s.handshakeDone) {P Q : Prop} :
      (s.handshakeDone = false → t.handshakeDone = true → P) ∧ (s.handshakeDone = true → t.handshakeDone = false → Q) := by
    simp +contextual [hd]
  cases step_registerEffect hstep with
  | reset hr h => exact ⟨fun _ ht => by simp [h, State.reset] at ht, fun _ _ => .inl hr⟩
  | hostWrite _ _ _ _ _ h => exact unchanged (by rw [h]; rfl)
  | fresh hb op arg rest hh hop h =>
    obtain ⟨-, hd, -⟩ := h
    exact ⟨fun _ ht => by simp [hd, State.reset] at ht, fun _ _ => .inr ⟨op, arg, rest, hb, hh, hop⟩⟩
  | handshake _ hp h =>
    obtain ⟨⟨-, hd, -⟩, -⟩ := h
    exact ⟨fun _ _ => hp, fun _ ht => by simp [hd] at ht⟩
  | packetCommand _ _ _ _ _ _ h | quiet _ h | load _ _ h | packet _ _ h | transferEnd _ _ h =>
    obtain ⟨⟨-, hd, -⟩, -⟩ := h
    exact unchanged hd

/-- Settles O53: only the end of a transfer leaves the engine Terminated, and there only the host or reset moves it. -/
theorem terminatedFlagWriters : Obligations.TerminatedFlagWriters := by
  intro s t hstep
  cases step_registerEffect hstep with
  | reset hr h => exact ⟨fun _ ht => by simp [h, State.reset] at ht, fun _ _ => .inl hr⟩
  | hostWrite _ _ _ _ _ h => exact ⟨fun hs ht => absurd (by rw [← ht, h]; rfl) hs, fun hs ht => absurd (by rw [← hs, h]; rfl) ht⟩
  | fresh _ op arg rest hh hop _ hp => exact ⟨fun _ ht => absurd ht hp, fun _ _ => .inr ⟨op, arg, rest, hh, hop⟩⟩
  | packetCommand hi _ _ _ _ _ h =>
    obtain ⟨-, hk⟩ := h
    exact ⟨fun _ ht => absurd ht hk.not_terminated, fun hs => by simp [hi] at hs⟩
  | quiet hb h | load hb _ h | handshake hb _ h | packet hb _ h =>
    obtain ⟨-, hk⟩ := h
    exact ⟨fun _ ht => absurd ht hk.not_terminated, fun hs => by simp [State.busy, hs] at hb⟩
  | transferEnd hb hp => exact ⟨fun _ _ => hp, fun hs => by simp [State.busy, hs] at hb⟩

/-- Settles O54: `x` is written by a load, by the host, and by a fresh engine. -/
theorem packetBufferWriters : Obligations.PacketBufferWriters := by
  intro s t hstep hne
  cases step_registerEffect hstep with
  | reset hr => exact .inl hr
  | hostWrite hb i v rest hh => exact .inr (.inr (.inr ⟨hb, .inl ⟨i, v, rest, hh⟩⟩))
  | fresh hb op arg rest hh hop => exact .inr (.inr (.inr ⟨hb, .inr ⟨op, arg, rest, hh, hop⟩⟩))
  | load _ hp => exact .inr (hp.imp_right .inl)
  | packetCommand _ _ _ _ _ _ h | quiet _ h | handshake _ _ h | packet _ _ h | transferEnd _ _ h =>
    obtain ⟨⟨-, -, hx⟩, -⟩ := h
    exact absurd hx hne

/-- Settles O55: RESULT changes where a command ends (`ResultKept`, `EndsTransfer`), and in a fresh engine. -/
theorem resultWrittenAtTheEndOnly : Obligations.ResultWrittenAtTheEndOnly := by
  intro s t hstep hr
  cases step_registerEffect hstep with
  | reset hr' => simp [hr] at hr'
  | hostWrite hb _ _ _ _ h => exact ⟨fun hc => by simp [h] at hc, fun hb' => by simp [hb] at hb'⟩
  | fresh hb op arg rest hh hop =>
    exact ⟨fun _ => .inr (.inr ⟨hb, op, arg, rest, hh, hop⟩), fun hb' => by simp [hb] at hb'⟩
  | packetCommand hi op arg rest hh hop h hc =>
    obtain ⟨-, hk⟩ := h
    have hb : s.busy = false := by simp [State.busy, hi]
    refine ⟨fun hch => ?_, fun hb' => by simp [hb] at hb'⟩
    have ht := hk.ended_of_changed hch
    exact .inr (.inl ⟨hb, ht, hk.valid_of_ended ht, hc.resolve_left (by simp [ht]), op, arg, rest, hh, hop⟩)
  | quiet hb h | load hb _ h | handshake hb _ h | packet hb _ h =>
    obtain ⟨-, hk⟩ := h
    exact ⟨fun hch => .inl ⟨hb, hk.ended_of_changed hch⟩, fun _ => hk.valid_of_ended⟩
  | transferEnd hb _ h =>
    obtain ⟨-, hp, hv⟩ := h
    exact ⟨fun _ => .inl ⟨hb, by simp [State.busy, hp]⟩, fun _ _ => hv⟩

end Sys2Proof.Machine
end

section
/-! SUPPORT. The registers as the host sees them (R31), and their values at reset (R36). -/

namespace Sys2Proof.Machine

theorem hostReadX_of_not_busy {s : State} (hb : s.busy = false) (i : Fin dataLen) :
    hostReadX i s = if s.xWritten.get i then .ok (s.x.get i) else .error .bufferUnwritten := by
  simp [hostReadX, hb]

/-- Settles O48: a host write changes one entry and its written mark (`setX_get_other`, `setX_xWritten_get_other`). -/
theorem hostRegisterAccess : Obligations.HostRegisterAccess := by
  intro s i v
  refine ⟨?_, rfl, fun hb => ?_, fun hb => ?_⟩
  · cases hp : s.phase <;> simp [hostReadStatus, State.status, State.terminatedFlag, State.busy, hp]
  · simp [hostReadX, hostReadResult, hostWriteX, hb]
  · have hbt : (s.setX i v).busy = false := hb
    refine ⟨hostReadX_of_not_busy hb i, by simp [hostReadResult, hb], s.setX i v, by simp [hostWriteX, hb], rfl, ?_, fun j hj => ?_⟩
    · rw [hostReadX_of_not_busy hbt, setX_xWritten_get_same, setX_get_same, if_pos rfl]
    · rw [hostReadX_of_not_busy hbt, hostReadX_of_not_busy hb, setX_xWritten_get_other s i j v hj, setX_get_other s i j v hj]

/-- Settles O47, field by field of `State.reset`. -/
theorem resetValues : Obligations.ResetValues :=
  ⟨rfl, rfl, rfl, rfl, fun i => by simp [State.reset], rfl, rfl, rfl, rfl, rfl, rfl, rfl⟩

end Sys2Proof.Machine
end

section
/-! SUPPORT. Memory, here the streams (R57, R67, R68, R71): when a step has no answer to take, what it does to the streams, and the
reads of a wire unit byte by byte. -/

namespace Sys2Proof.Machine

/-! ### When a step has no step to take -/

/-- No instruction stops the machine: its errors are next states, and what it refuses has no meaning. -/
theorem exec_ne_fault (i : Instr) (s : State) (r : Fault) : exec i s ≠ .fault r := by
  cases i with
  | soh | eot | ack | nak | can | complement => nofun
  | data | checksum | frame | deframe | new | rxPacket | txPacket | receive | transmit =>
    simp only [exec, execData, execChecksum, execFrame, execDeframe, execNew, execRxPacket, execTxPacket, execReceive, execTransmit]
    split <;> nofun

/-- An engine that is not busy waits for a command and for nothing else (R36). -/
theorem hostStep_eq_fault {s : State} {r : Fault} : hostStep s = .fault r ↔ s.host = [] ∧ r = .waitingForCommand := by
  unfold hostStep
  split
  · next hh => simp [hh, eq_comm]
  · next hh =>
    unfold hostWriteX
    split <;> simp [hh]
  · next hh =>
    split
    · simp [hh, exec_ne_fault]
    · simp [hh]

theorem readStep_eq_fault {s : State} {r : Fault} : readStep s = .fault r ↔ s.readAnswers = [] ∧ r = .waiting .chanRd := by
  unfold readStep
  split
  · next ha => simp [ha, eq_comm]
  · next ha => simp [ha]
  · next ha =>
    split
    · simp [ha, exec_ne_fault]
    · simp [ha]

theorem writeStep_eq_fault {s : State} {r : Fault} : writeStep s = .fault r ↔ s.writeAnswers = [] ∧ r = .waiting .chanWr := by
  unfold writeStep
  split
  · next ha => simp [ha, eq_comm]
  all_goals next ha => simp [ha]

/-- The source always answers (log 3). -/
theorem sourceStep_ne_fault (s : State) (r : Fault) : sourceStep s ≠ .fault r := by
  unfold sourceStep
  split <;> nofun

theorem sinkStep_eq_fault {s : State} {r : Fault} : sinkStep s = .fault r ↔ s.sinkAnswers = [] ∧ r = .waiting .sink := by
  unfold sinkStep
  split
  · next ha => simp [ha, eq_comm]
  all_goals next ha => simp [ha]

/-- Settles O49, port by port: each kind of step stops only where its list of answers is empty. -/
theorem noStepExactlyWhileWaiting : Obligations.NoStepExactlyWhileWaiting := by
  intro s r
  cases hr : s.resetPin with
  | true => simp [step_of_reset hr]
  | false =>
    rw [busy_eq_port_isSome]
    cases hp : s.phase.port with
    | none => simp [step_at_host hr hp, hostStep_eq_fault]
    | some p =>
      cases p with
      | chanRd => simp [step_at_read hr hp, readStep_eq_fault, State.readAnswers, supply_eq_nil, and_assoc]
      | chanWr => simp [step_at_write hr hp, writeStep_eq_fault, State.writeAnswers, supply_eq_nil, and_assoc]
      | src => simp [step_at_source hr hp, sourceStep_ne_fault]
      | sink => simp [step_at_sink hr hp, sinkStep_eq_fault, State.sinkAnswers, supply_eq_nil, and_assoc]

/-! ### What a step does to the streams -/

/-- What the environment's side may show of one step (R68, R71): the body of `StreamsMoveOnlyAtTheirPort`. -/
def StreamsMove (s t : State) : Prop :=
  (t.chanRd = s.chanRd ∨ (s.phase.port = some .chanRd ∧ ∃ a, s.readAnswers = a :: t.chanRd)) ∧
  (t.chanWr = s.chanWr ∨ (s.phase.port = some .chanWr ∧ ∃ b, s.offeredByte = some b ∧ t.chanWr = s.chanWr ++ [b])) ∧
  (t.chanWrAns = s.chanWrAns ∨ (s.phase.port = some .chanWr ∧ ∃ a, s.writeAnswers = a :: t.chanWrAns)) ∧
  (t.src = s.src ∨ (s.phase = .trSrc ∧ ∃ a, s.sourceAnswers = a :: t.src)) ∧
  (t.sink = s.sink ∨ (s.phase = .rcSink ∧ t.sink = s.sink ++ s.x.toList)) ∧
  (t.sinkAns = s.sinkAns ∨ (s.phase = .rcSink ∧ ∃ a, s.sinkAnswers = a :: t.sinkAns)) ∧
  t.config = s.config ∧ t.again = s.again

/-- What an operation does after the port step adds nothing, where it touches no stream. -/
theorem StreamsMove.trans_same {s u t : State} (h : StreamsMove s u) (k : SameStreams u t) : StreamsMove s t := by
  obtain ⟨hc, hrd, hwa, hw, hsrc, hska, hsk, hag, -, -⟩ := k
  simpa only [StreamsMove, hc, hrd, hwa, hw, hsrc, hska, hsk, hag] using h

/-- The host's list and the reset pin are no streams. -/
theorem StreamsMove.of_same {s t : State} (k : SameStreams { s with host := t.host, resetPin := t.resetPin } t) :
    StreamsMove s t :=
  StreamsMove.trans_same (u := { s with host := t.host, resetPin := t.resetPin })
    ⟨.inl rfl, .inl rfl, .inl rfl, .inl rfl, .inl rfl, .inl rfl, rfl, rfl⟩ k

/-- A write site offers a byte. -/
theorem offeredByte_of_write_site {s : State} (hp : s.phase.port = some .chanWr) : ∃ b, s.offeredByte = some b := by
  revert hp
  unfold State.offeredByte
  cases s.phase <;> simp [Phase.port]

theorem streamsMove_of_write {s : State} {a : WriteAnswer} {rest : List WriteAnswer} (hp : s.phase.port = some .chanWr)
    (ha : s.writeAnswers = a :: rest) (sent : Bool) :
    StreamsMove s { s with
      chanWrAns := rest
      chanWr := if sent then s.chanWr ++ s.offeredByte.toList else s.chanWr } := by
  obtain ⟨b, hb⟩ := offeredByte_of_write_site hp
  refine ⟨.inl rfl, ?_, .inr ⟨hp, a, ha⟩, .inl rfl, .inl rfl, .inl rfl, rfl, rfl⟩
  cases sent with
  | false => exact .inl rfl
  | true => exact .inr ⟨hp, b, hb, by simp [hb]⟩

theorem streamsMove_of_read {s : State} {a : ReadAnswer} {rest : List ReadAnswer} (hp : s.phase.port = some .chanRd)
    (ha : s.readAnswers = a :: rest) : StreamsMove s { s with chanRd := rest } :=
  ⟨.inr ⟨hp, a, ha⟩, .inl rfl, .inl rfl, .inl rfl, .inl rfl, .inl rfl, rfl, rfl⟩

theorem streamsMove_of_source {s : State} {a : SrcAnswer} {rest : List SrcAnswer} (hp : s.phase.port = some .src)
    (ha : s.sourceAnswers = a :: rest) : StreamsMove s { s with src := rest } :=
  ⟨.inl rfl, .inl rfl, .inl rfl, .inr ⟨phase_eq_trSrc hp, a, ha⟩, .inl rfl, .inl rfl, rfl, rfl⟩

/-- A command the engine accepts touches no stream: its port operations are steps of their own (log 1). -/
theorem exec_command_sameStreams {op : BitVec 3} {arg : Nat} {i : Instr} {s t : State} (hd : decode (.cmd op arg) = .ok i)
    (he : exec i s = .next t) : SameStreams s t := by
  rcases exec_command_cases hd he with ⟨-, -, rfl⟩ | ⟨-, -, -, rfl⟩ | ⟨-, -, -, rfl⟩ | ⟨-, -, rfl⟩ | ⟨-, -, rfl⟩
  · exact freshEngine_sameStreams s
  · split
    · simp [SameStreams]
    · exact startRx_sameStreams { s with cmd := .rxPacket, len := arg, role := some .receiver }
  · split
    · simp [SameStreams]
    · exact startTx_sameStreams { s with cmd := .txPacket, len := arg, role := some .sender }
  · exact startRx_sameStreams { freshEngine s with cmd := .receive, role := some .receiver, len := 128, total := 0 }
  · simp [SameStreams]

/-- Settles O56, by the kinds of step of `step_cases`: each takes one answer of its own port, and what follows touches no stream. -/
theorem streamsMoveOnlyAtTheirPort : Obligations.StreamsMoveOnlyAtTheirPort := by
  intro s t hstep
  change StreamsMove s t
  rcases step_cases hstep with ⟨-, rfl⟩ | ⟨-, -, i, v, rest, -, rfl⟩ | ⟨-, -, op, arg, rest, i, -, hd, he⟩ |
    ⟨-, hp, b, rest, ha, rfl⟩ | ⟨-, hp, k, rest, ha, rfl⟩ | ⟨-, hp, rest, ha, rfl⟩ | ⟨-, hp, k, wentOut, rest, ha, rfl⟩ |
    ⟨-, -, -, rfl⟩ | ⟨-, hp, b, rest, ha, rfl⟩ | ⟨-, hp, k, rest, ha, rfl⟩ | ⟨-, hp, rest, ha, rfl⟩ | ⟨-, hp, k, rest, ha, rfl⟩
  case inl => exact .of_same (by simp [SameStreams])
  · exact .of_same (by simp [SameStreams])
  · exact StreamsMove.trans_same (.of_same (.rfl' { s with host := rest })) (exec_command_sameStreams hd he)
  · exact (streamsMove_of_read hp ha).trans_same (takeByte_sameStreams b _)
  · exact (streamsMove_of_read hp ha).trans_same (readFailed_sameStreams k _)
  · exact (streamsMove_of_write hp ha true).trans_same (byteWritten_sameStreams _)
  · exact (streamsMove_of_write hp ha wentOut).trans_same (writeFailed_sameStreams k _)
  · exact .trans_same (.of_same (.rfl' s)) (chunkLoaded_sameStreams s)
  · exact (streamsMove_of_source hp ha).trans_same (takeSourceByte_sameStreams b _)
  · exact (streamsMove_of_source hp ha).trans_same (raise_sameStreams _ _)
  · have hk := phase_eq_rcSink hp
    refine StreamsMove.trans_same ?_ (startRx_sameStreams _)
    exact ⟨.inl rfl, .inl rfl, .inl rfl, .inl rfl, .inr ⟨hk, rfl⟩, .inr ⟨hk, _, ha⟩, rfl, rfl⟩
  · refine StreamsMove.trans_same ?_ (raise_sameStreams _ _)
    exact ⟨.inl rfl, .inl rfl, .inl rfl, .inl rfl, .inl rfl, .inr ⟨phase_eq_rcSink hp, _, ha⟩, rfl, rfl⟩

/-! ### Wire units, byte by byte -/

/-- `CHAN_RD` holds `l`. -/
def State.withChanRd (s : State) (l : List ReadAnswer) : State := { s with chanRd := l }

@[simp] theorem withChanRd_cmd (s : State) (l : List ReadAnswer) : (s.withChanRd l).cmd = s.cmd := rfl
@[simp] theorem withChanRd_phase (s : State) (l : List ReadAnswer) : (s.withChanRd l).phase = s.phase := rfl

section WithChanRd

variable (s : State) (l : List ReadAnswer)

theorem afterHandshake_withChanRd : afterHandshake (s.withChanRd l) = (afterHandshake s).withChanRd l := by
  unfold afterHandshake
  rw [apply_ite (State.withChanRd · l)]
  rfl

theorem startTx_withChanRd : startTx (s.withChanRd l) = (startTx s).withChanRd l := by
  unfold startTx
  rw [apply_ite (State.withChanRd · l), afterHandshake_withChanRd]
  rfl

theorem raise_withChanRd (e : CmdError) : raise e (s.withChanRd l) = (raise e s).withChanRd l := by
  unfold raise
  rw [apply_ite (State.withChanRd · l), apply_ite (State.withChanRd · l), ← startTx_withChanRd]
  rfl

theorem packetSent_withChanRd : packetSent (s.withChanRd l) = (packetSent s).withChanRd l := by
  cases hc : s.cmd <;> simp only [packetSent, withChanRd_cmd, hc] <;> rfl

theorem transferEnded_withChanRd : transferEnded (s.withChanRd l) = (transferEnded s).withChanRd l := by
  cases hc : s.cmd <;> simp only [transferEnded, withChanRd_cmd, hc] <;> rfl

theorem violate_withChanRd (emit : Bool) (p : Phase) (site : Site) :
    violate emit p site (s.withChanRd l) = (violate emit p site s).withChanRd l := by
  cases emit with
  | false => exact raise_withChanRd s l _
  | true => rfl

theorem expectByte_withChanRd (e b : Byte) (site : Site) (m v : State) :
    expectByte e b site (m.withChanRd l) (v.withChanRd l) (s.withChanRd l) = (expectByte e b site m v s).withChanRd l := by
  unfold expectByte
  rw [apply_ite (State.withChanRd · l), apply_ite (State.withChanRd · l), raise_withChanRd]

theorem takeHeader_withChanRd (b : Byte) : takeHeader b (s.withChanRd l) = (takeHeader b s).withChanRd l := by
  unfold takeHeader
  simp only [apply_ite (State.withChanRd · l), raise_withChanRd]
  rfl

theorem takeReply_withChanRd (b : Byte) : takeReply b (s.withChanRd l) = (takeReply b s).withChanRd l := by
  unfold takeReply
  simp only [apply_ite (State.withChanRd · l), ← packetSent_withChanRd, ← raise_withChanRd, ← violate_withChanRd]
  rfl

/-- What the engine does with a byte does not depend on what stands behind it in the channel. -/
theorem takeByte_withChanRd (b : Byte) : takeByte b (s.withChanRd l) = (takeByte b s).withChanRd l := by
  unfold takeByte
  rw [withChanRd_phase]
  cases s.phase
  case rxHeader => exact takeHeader_withChanRd s l b
  case txReply => exact takeReply_withChanRd s l b
  case rxSeq | rxCmp => exact expectByte_withChanRd s l _ b _ (s.goto _) (s.goto _)
  case rxEot2 | txEot1 =>
    dsimp only
    rw [← expectByte_withChanRd, ← violate_withChanRd]
    rfl
  case txHandshake =>
    dsimp only
    rw [← expectByte_withChanRd, ← violate_withChanRd, ← afterHandshake_withChanRd]
    rfl
  case txEot2 =>
    dsimp only
    rw [← expectByte_withChanRd, ← violate_withChanRd, ← transferEnded_withChanRd]
    rfl
  all_goals rfl

end WithChanRd

/-- How many bytes of a wire unit at the head of `CHAN_RD` the engine reads before it is away from the read sites (R68). -/
def unitReads : List Byte → State → Nat
  | [], _ => 0
  | b :: bs, s => if s.atChanRead then unitReads bs (takeByte b s) + 1 else 0

theorem unitReads_cons_of_read {s : State} (b : Byte) (bs : List Byte) (h : s.atChanRead = true) :
    unitReads (b :: bs) s = unitReads bs (takeByte b s) + 1 := by
  simp [unitReads, h]

theorem unitReads_of_wait {s : State} (bs : List Byte) (h : s.atChanRead = false) : unitReads bs s = 0 := by
  cases bs <;> simp [unitReads, h]

/-- Reading a wire unit step by step is taking it, whatever the unit and the phase (R67, R68). -/
theorem runSteps_unitReads (bs : List Byte) {s : State} (hr : s.resetPin = false) :
    runSteps (unitReads bs s) (s.withChanRd (bs.map .byte ++ s.chanRd)) = .next (takeUnit bs s) := by
  induction bs generalizing s with
  | nil => rfl
  | cons b bs ih =>
    cases ha : s.atChanRead with
    | false =>
      rw [unitReads_of_wait _ ha, takeUnit_cons_of_wait _ _ ha]
      rfl
    | true =>
      rw [unitReads_cons_of_read _ _ ha, takeUnit_cons_of_read _ _ ha]
      obtain ⟨-, hrd, -, -, -, -, -, -, -, hpin⟩ := takeByte_sameStreams b s
      have hstep : step (s.withChanRd ((b :: bs).map .byte ++ s.chanRd)) =
          .next ((takeByte b s).withChanRd (bs.map .byte ++ (takeByte b s).chanRd)) := by
        rw [hrd, ← takeByte_withChanRd]
        exact step_reads_byte hr (by simpa [State.atChanRead] using ha) (readAnswers_of_cons rfl)
      rw [runSteps_succ_of_next hstep]
      exact ih (hpin.trans hr)

/-! ### How much of a data frame is read -/

theorem atChanRead_of_phase {s : State} {p : Phase} (hp : s.phase = p) (h : p.port = some .chanRd) : s.atChanRead = true := by
  simp [State.atChanRead, hp, h]

@[simp] theorem expectByte_same (e : Byte) (site : Site) (m v s : State) : expectByte e e site m v s = m := by
  simp [expectByte]

/-- After a wrong byte at an expected-byte site of the header nothing more is read: the engine is Idle, or at a CAN write (R86). -/
theorem unitReads_expectByte_of_ne {e b : Byte} (h : b ≠ e) {p : Phase} (hp : (p.port == some .chanRd) = false) (site : Site)
    (m s : State) (bs : List Byte) : unitReads bs (expectByte e b site m (s.goto p) s) = 0 := by
  apply unitReads_of_wait
  rcases expectByte_cases e b site m (s.goto p) s with ⟨he, -⟩ | ⟨-, -, hx⟩ | ⟨-, -, hx⟩
  · exact absurd he h
  · rw [hx]
    rfl
  · rw [hx]
    exact hp

/-- From data byte `i` on, every byte up to the checksum byte is read, whatever it is (R67, R138). -/
theorem unitReads_data (d : List Byte) (ck : Byte) {i : Fin dataLen} {s : State} (hp : s.phase = .rxData i)
    (hd : i.val + d.length = 128) : unitReads (d ++ [ck]) s = d.length + 1 := by
  induction d generalizing i s with
  | nil => exact absurd hd i.isLt.ne
  | cons b d ih =>
    have hnext : (takeByte b s).phase = nextRxData i := by rw [takeByte_rxData b hp]; rfl
    rw [List.length_cons] at hd ⊢
    rw [List.cons_append, unitReads_cons_of_read _ _ (atChanRead_of_phase hp rfl)]
    congr 1
    by_cases hi : i.val + 1 < 128
    · rw [nextRxData, dif_pos hi] at hnext
      exact ih hnext (by dsimp only; omega)
    · rw [nextRxData, dif_neg hi] at hnext
      have hlast : d = [] := List.eq_nil_of_length_eq_zero (by omega)
      subst hlast
      exact unitReads_cons_of_read _ _ (atChanRead_of_phase hnext rfl)

section Frame

variable {s : State} (seq cmp ck : Byte) {d : List Byte} (hd : d.length = 128)
include hd

theorem unitReads_from_cmp (hp : s.phase = .rxCmp) :
    unitReads (cmp :: (d ++ [ck])) s = if cmp ≠ complementOf s.packetNumber then 1 else 130 := by
  rw [unitReads_cons_of_read _ _ (atChanRead_of_phase hp rfl), takeByte_rxCmp _ hp]
  by_cases hc : cmp = complementOf s.packetNumber
  · rw [if_neg (not_not.mpr hc), hc, expectByte_same, unitReads_data d ck (i := 0) rfl (by simpa using hd), hd]
  · rw [if_pos hc, unitReads_expectByte_of_ne hc rfl]

theorem unitReads_from_seq (hp : s.phase = .rxSeq) :
    unitReads (seq :: cmp :: (d ++ [ck])) s =
      if seq ≠ s.packetNumber then 1 else if cmp ≠ complementOf s.packetNumber then 2 else 131 := by
  rw [unitReads_cons_of_read _ _ (atChanRead_of_phase hp rfl), takeByte_rxSeq _ hp]
  by_cases hs : seq = s.packetNumber
  · rw [if_neg (not_not.mpr hs), hs, expectByte_same, unitReads_from_cmp cmp ck hd rfl, apply_ite (· + 1), goto_packetNumber]
  · rw [if_pos hs, unitReads_expectByte_of_ne hs rfl]

/-- The header is read up to its first mismatch, and a frame without one as a whole (R67, R86, R137). -/
theorem unitReads_frameBytes (hp : s.phase = .rxHeader) :
    unitReads (frameBytes seq cmp d ck) s =
      if seq ≠ s.packetNumber then 2 else if cmp ≠ complementOf s.packetNumber then 3 else 132 := by
  have hsoh : takeByte sohByte s = s.goto .rxSeq := by rw [takeByte_rxHeader _ hp, takeHeader, if_pos rfl]
  rw [frameBytes, unitReads_cons_of_read _ _ (atChanRead_of_phase hp rfl), hsoh, unitReads_from_seq seq cmp ck hd rfl,
    apply_ite (· + 1), apply_ite (· + 1), goto_packetNumber]

end Frame

/-- Settles O34: the frame is a wire unit, and `unitReads_frameBytes` says how much of it is read. -/
theorem dataInstructionIsItsByteReads : Obligations.DataInstructionIsItsByteReads := by
  intro s seq cmp d ck hd hr hp
  rw [← unitReads_frameBytes seq cmp ck hd hp]
  have hexec : exec (.data seq cmp d ck) s = .next (takeUnit (frameBytes seq cmp d ck) s) := by simp [exec, execData, hd]
  rw [hexec]
  exact runSteps_unitReads _ hr

end Sys2Proof.Machine
end

section
/-! SUPPORT. The decoder and the encoder (R80 to R82, R92, R94): what each decodes, and that they agree. -/

namespace Sys2Proof

open Sys2Proof.Machine

/-! ### One byte -/

/-- The words of one byte are those of the five symbols (R81). -/
theorem symbol_of_encode_byte {b : Byte} {i : Instr} (h : encode i = some (.wire [b])) :
    decodeSymbol b = .ok i ∧ i.WellFormed ∧ b ∈ [0x01, 0x04, 0x06, 0x15, 0x18] := by
  cases i with
  | soh | eot | ack | nak | can => cases h; exact ⟨rfl, rfl, by decide⟩
  | data => simp [encode, frameBytes] at h
  | new | rxPacket | txPacket | receive | transmit | checksum | complement | frame | deframe => cases h

/-- A byte decodes only to the symbol whose word it is. -/
theorem encode_of_decodeSymbol {b : Byte} {i : Instr} (h : decodeSymbol b = .ok i) : encode i = some (.wire [b]) := by
  unfold decodeSymbol at h
  split_ifs at h with hb hb hb hb hb <;> cases h <;> rw [hb] <;> rfl

/-- The bytes that are symbols (R81). -/
theorem exists_decodeSymbol_eq_ok {b : Byte} : (∃ i, decodeSymbol b = .ok i) ↔ b ∈ [0x01, 0x04, 0x06, 0x15, 0x18] := by
  constructor
  · rintro ⟨i, h⟩
    obtain ⟨-, -, hb⟩ := symbol_of_encode_byte (encode_of_decodeSymbol h)
    exact hb
  · intro h
    fin_cases h
    exacts [⟨.soh, rfl⟩, ⟨.eot, rfl⟩, ⟨.ack, rfl⟩, ⟨.nak, rfl⟩, ⟨.can, rfl⟩]

/-! ### 132 bytes -/

/-- 132 bytes have the layout of a frame (R82), whatever the first of them. -/
theorem exists_layout_of_length {f : List Byte} (hf : f.length = 132) :
    ∃ b seq cmp d ck, d.length = 128 ∧ f = b :: seq :: cmp :: (d ++ [ck]) := by
  match f, hf with
  | b :: seq :: cmp :: rest, hf =>
    have hl : rest.length = 129 := by simpa using hf
    obtain ⟨d, ck, rfl⟩ := List.eq_nil_or_concat rest |>.resolve_left (by rintro rfl; simp at hl)
    exact ⟨b, seq, cmp, d, ck, by simpa using hl, by simp⟩

theorem decodeFrame_layout (b seq cmp ck : Byte) {d : List Byte} (hd : d.length = 128) :
    decodeFrame (b :: seq :: cmp :: (d ++ [ck])) =
      if b = sohByte then .ok (.data seq cmp d ck) else .error .noStartByte := by
  have hdrop : (d ++ [ck]).drop dataLen = [ck] := List.drop_left' hd
  have htake : (d ++ [ck]).take dataLen = d := List.take_left' hd
  simp only [decodeFrame, hdrop, htake]

theorem decodeWire_of_length {f : List Byte} (hf : f.length = 132) : decodeWire f = decodeFrame f := by
  unfold decodeWire
  split
  · simp at hf
  · exact if_pos hf

/-- A frame's bytes decode to the frame, for every value of its fields (R82, R84). -/
theorem decode_frameBytes (seq cmp ck : Byte) {d : List Byte} (hd : d.length = 128) :
    decode (.wire (frameBytes seq cmp d ck)) = .ok (.data seq cmp d ck) := by
  rw [decode, decodeWire_of_length (by simp [length_frameBytes, hd]), frameBytes, decodeFrame_layout _ _ _ _ hd, if_pos rfl]

/-- What 132 bytes decode to, if anything, is a frame with these bytes. -/
theorem decodeFrame_eq_ok {f : List Byte} {i : Instr} (hf : f.length = 132) (h : decodeFrame f = .ok i) :
    encode i = some (.wire f) ∧ i.WellFormed := by
  obtain ⟨b, seq, cmp, d, ck, hd, rfl⟩ := exists_layout_of_length hf
  rw [decodeFrame_layout _ _ _ _ hd] at h
  split at h
  · next hb =>
    cases h
    subst hb
    exact ⟨rfl, by simpa [Instr.WellFormed, Instr.wellFormed] using hd⟩
  · cases h

/-- 132 bytes are a frame exactly if they begin with SOH (R80). -/
theorem exists_decodeFrame_eq_ok {f : List Byte} (hf : f.length = 132) :
    (∃ i, decodeFrame f = .ok i) ↔ f.head? = some 0x01 := by
  obtain ⟨b, seq, cmp, d, ck, hd, rfl⟩ := exists_layout_of_length hf
  rw [decodeFrame_layout _ _ _ _ hd, List.head?_cons, Option.some_inj]
  split
  · next hb => exact ⟨fun _ => hb, fun _ => ⟨_, rfl⟩⟩
  · next hb => exact ⟨nofun, fun h => absurd h hb⟩

/-! ### Wire units and commands -/

/-- What decodes on the wire is one byte or 132. -/
theorem decodeWire_cases {bytes : List Byte} {i : Instr} (h : decodeWire bytes = .ok i) :
    (∃ b, bytes = [b] ∧ decodeSymbol b = .ok i) ∨ (bytes.length = 132 ∧ decodeFrame bytes = .ok i) := by
  unfold decodeWire at h
  split at h
  · next b => exact .inl ⟨b, rfl, h⟩
  split at h
  · next hl => exact .inr ⟨hl, h⟩
  · cases h

/-- The command port carries commands only (R92). -/
theorem isCommand_of_decode {op : BitVec 3} {arg : Nat} {i : Instr} (h : decode (.cmd op arg) = .ok i) : isCommand i = true := by
  rw [decode, decodeCmd] at h
  split_ifs at h <;> cases h <;> rfl

/-- The codes above 4 are reserved (R93). -/
theorem decode_cmd_reserved {op : BitVec 3} (arg : Nat) (h : 5 ≤ op.toNat) : decode (.cmd op arg) = .error .reservedOp := by
  have hne (k : BitVec 3) (hk : k.toNat < 5) : op ≠ k := by
    rintro rfl
    omega
  simp [decode, decodeCmd, hne]

/-! ### The statements -/

/-- Settles O2, instruction by instruction: a symbol's and a command's words are constants but for the operand, a frame's are
`decode_frameBytes`, and a codec function has none. -/
theorem decodeEncodeRoundTrip : Obligations.DecodeEncodeRoundTrip := by
  intro i hw
  cases i with
  | soh | eot | ack | nak | can => exact ⟨rfl, rfl⟩
  | data seq cmp d ck =>
    have hd : d.length = 128 := by simpa [Instr.WellFormed, Instr.wellFormed] using hw
    exact ⟨decode_frameBytes seq cmp ck hd, rfl⟩
  | new | rxPacket | txPacket | receive | transmit => exact ⟨rfl, rfl⟩
  | checksum | complement | frame | deframe => rfl

/-- Settles O3, by the two lengths of a wire unit. -/
theorem wireUnitsAreSymbolsAndFrames : Obligations.WireUnitsAreSymbolsAndFrames := by
  refine ⟨fun bytes i h => ?_, fun f hf => ?_, fun b => exists_decodeSymbol_eq_ok⟩
  · rcases decodeWire_cases h with ⟨b, rfl, hb⟩ | ⟨hl, hf⟩
    · have he := encode_of_decodeSymbol hb
      obtain ⟨-, hw, -⟩ := symbol_of_encode_byte he
      exact ⟨he, hw, .inl rfl⟩
    · obtain ⟨he, hw⟩ := decodeFrame_eq_ok hl hf
      exact ⟨he, hw, .inr hl⟩
  · rw [decode, decodeWire_of_length hf]
    exact exists_decodeFrame_eq_ok hf

/-- Settles O1: the symbols and commands are constants, the frame is `decode_frameBytes`. -/
theorem specWordsDecode : Obligations.SpecWordsDecode :=
  ⟨rfl, rfl, rfl, rfl, rfl, rfl, rfl, rfl, rfl, rfl, decode_frameBytes 0x02 0xFD 0x03 (by simp)⟩

end Sys2Proof
end

section
/-! SUPPORT. What a step does with the host's next operation (R31, R75, R92), and what is refused (R93, R147, R174). -/

namespace Sys2Proof.Machine

/-! ### The host's next operation -/

theorem port_of_not_busy {s : State} (hb : s.busy = false) : s.phase.port = none := by
  simpa [busy_eq_port_isSome] using hb

/-- A command that decodes is run (R92). -/
theorem hostStep_of_decode_ok {s : State} {op : BitVec 3} {arg : Nat} {rest : List HostOp} {i : Instr}
    (hh : s.host = .command op arg :: rest) (hd : decode (.cmd op arg) = .ok i) :
    hostStep s = exec i { s with host := rest } := by
  simp only [hostStep, hh, hd]

/-- One that does not is refused (R93). -/
theorem hostStep_of_decode_error {s : State} {op : BitVec 3} {arg : Nat} {rest : List HostOp} {e : DecodeError}
    (hh : s.host = .command op arg :: rest) (hd : decode (.cmd op arg) = .error e) :
    hostStep s = .refused (.reservedCommand op) := by
  simp only [hostStep, hh, hd]

/-- A write of `x` is made while the engine is not busy (R23, R31). -/
theorem hostStep_writeX {s : State} {i : Fin dataLen} {v : Byte} {rest : List HostOp} (hb : s.busy = false)
    (hh : s.host = .writeX i v :: rest) : hostStep s = .next ({ s with host := rest }.setX i v) := by
  have hb' : ({ s with host := rest } : State).busy = false := hb
  simp only [hostStep, hh, hostWriteX, hb', Bool.false_eq_true, if_false]

/-! ### Refusals -/

theorem refusalNew_of_busy {s : State} (hb : s.busy = true) : refusalNew s = some .busy := if_pos hb

theorem refusalPacket_of_busy {s : State} (hb : s.busy = true) (r : Role) : refusalPacket r s = some .busy := if_pos hb

theorem refusalTx_of_busy {s : State} (hb : s.busy = true) (len : Nat) : refusalTx len s = some .busy := by
  simp only [refusalTx, refusalPacket_of_busy hb]

/-- While the engine is not busy NEW is admitted (R190). -/
theorem refusalNew_of_not_busy {s : State} (hb : s.busy = false) : refusalNew s = none := by
  simp [refusalNew, hb]

/-- Why a packet command is refused while the engine is not busy (R147, R174). -/
theorem refusalPacket_of_not_busy {s : State} {role : Role} {r : Refusal} (hb : s.busy = false)
    (h : refusalPacket role s = some r) : r = .terminated ∨ r = .wrongRole := by
  simp only [refusalPacket, hb, Bool.false_eq_true, if_false] at h
  split at h
  · cases h; exact .inl rfl
  split at h
  · cases h
  · cases h; exact .inr rfl

/-- The same for TX_PACKET, which also wants its buffer written (R174). -/
theorem refusalTx_of_not_busy {s : State} {len : Nat} {r : Refusal} (hb : s.busy = false) (h : refusalTx len s = some r) :
    r = .terminated ∨ r = .wrongRole ∨ r = .bufferUnwritten := by
  unfold refusalTx at h
  split at h
  · next hp => cases h; exact (refusalPacket_of_not_busy hb hp).imp_right .inl
  split at h
  · cases h; exact .inr (.inr rfl)
  · cases h

/-- Every command is refused while the engine is busy (R93). -/
theorem exec_command_of_busy {s : State} {i : Instr} (hb : s.busy = true) (hc : isCommand i = true) :
    exec i s = .refused .busy := by
  cases i with
  | new => simp only [exec, execNew, refusalNew_of_busy hb]
  | receive => simp only [exec, execReceive, refusalNew_of_busy hb]
  | transmit => simp only [exec, execTransmit, refusalNew_of_busy hb]
  | rxPacket cap => simp only [exec, execRxPacket, refusalRx, refusalPacket_of_busy hb]
  | txPacket len => simp only [exec, execTxPacket, refusalTx_of_busy hb]
  | soh | eot | ack | nak | can | data | checksum | complement | frame | deframe => cases hc

/-- While it is not, only a packet command is, and for its own reasons (R147, R174, R190). -/
theorem exec_command_refused_of_not_busy {s : State} {i : Instr} {r : Refusal} (hb : s.busy = false) (hc : isCommand i = true)
    (h : exec i s = .refused r) : r = .terminated ∨ r = .wrongRole ∨ r = .bufferUnwritten := by
  cases i with
  | new => simp [exec, execNew, refusalNew_of_not_busy hb] at h
  | receive => simp [exec, execReceive, refusalNew_of_not_busy hb] at h
  | transmit => simp [exec, execTransmit, refusalNew_of_not_busy hb] at h
  | rxPacket cap =>
    simp only [exec, execRxPacket] at h
    split at h
    · next hr => cases h; exact (refusalPacket_of_not_busy hb hr).imp_right .inl
    · cases h
  | txPacket len =>
    simp only [exec, execTxPacket] at h
    split at h
    · next hr => cases h; exact refusalTx_of_not_busy hb hr
    · cases h
  | soh | eot | ack | nak | can | data | checksum | complement | frame | deframe => cases hc

/-! ### A busy engine is never refused a step -/

theorem readStep_ne_refused {s : State} (ha : s.atChanRead = true) (r : Refusal) : readStep s ≠ .refused r := by
  cases hc : s.readAnswers with
  | nil => simp [readStep, hc]
  | cons a rest =>
    cases a with
    | byte b => simp [readStep_byte ha hc]
    | fail k => simp [readStep, hc]

theorem writeStep_ne_refused (s : State) (r : Refusal) : writeStep s ≠ .refused r := by
  unfold writeStep
  split <;> nofun

theorem sourceStep_ne_refused (s : State) (r : Refusal) : sourceStep s ≠ .refused r := by
  unfold sourceStep
  split <;> nofun

theorem sinkStep_ne_refused (s : State) (r : Refusal) : sinkStep s ≠ .refused r := by
  unfold sinkStep
  split <;> nofun

/-- A step is refused by the host's port alone, and reset is never refused. -/
theorem step_refused_at_host {s : State} {r : Refusal} (h : step s = .refused r) :
    s.resetPin = false ∧ s.busy = false ∧ hostStep s = .refused r := by
  cases hr : s.resetPin with
  | true => simp [step_of_reset hr] at h
  | false =>
    cases hp : s.phase.port with
    | none => exact ⟨rfl, not_busy_of_port hp, step_at_host hr hp ▸ h⟩
    | some p =>
      cases p with
      | chanRd => exact absurd (step_at_read hr hp ▸ h) (readStep_ne_refused (by simp [State.atChanRead, hp]) r)
      | chanWr => exact absurd (step_at_write hr hp ▸ h) (writeStep_ne_refused s r)
      | src => exact absurd (step_at_source hr hp ▸ h) (sourceStep_ne_refused s r)
      | sink => exact absurd (step_at_sink hr hp ▸ h) (sinkStep_ne_refused s r)

/-! ### The statements -/

/-- Settles O50: only the host's port refuses (`step_refused_at_host`), there only a command, and a command that decodes only for the
reasons of `exec_command_refused_of_not_busy`. -/
theorem onlyCommandsAreRefused : Obligations.OnlyCommandsAreRefused := by
  intro s r h
  obtain ⟨hr, hb, hs⟩ := step_refused_at_host h
  cases hh : s.host with
  | nil => simp [hostStep, hh] at hs
  | cons o rest =>
    cases o with
    | writeX i v => simp [hostStep_writeX hb hh] at hs
    | command op arg =>
      refine ⟨hr, hb, ⟨op, arg, rest, rfl⟩, ?_⟩
      cases hd : decode (.cmd op arg) with
      | error e =>
        rw [hostStep_of_decode_error hh hd] at hs
        cases hs
        exact .inr (.inr (.inr ⟨op, rfl⟩))
      | ok i =>
        rw [hostStep_of_decode_ok hh hd] at hs
        have hreasons := exec_command_refused_of_not_busy (s := { s with host := rest }) hb (isCommand_of_decode hd) hs
        exact hreasons.imp_right (.imp_right .inl)

/-- Settles O4: a reserved code does not decode, and a command looks at `busy` first. -/
theorem reservedAndBusyCommandsRefused : Obligations.ReservedAndBusyCommandsRefused := by
  refine ⟨fun s op arg rest hr hb hh hop => ?_, fun s i hb hc => exec_command_of_busy hb hc⟩
  rw [step_at_host hr (port_of_not_busy hb)]
  exact hostStep_of_decode_error hh (decode_cmd_reserved arg hop)

/-- Settles O5, by the port: the two operations of the host, and the symbol at a read site. -/
theorem stepRunsDecodedInstruction : Obligations.StepRunsDecodedInstruction := by
  refine ⟨fun s op arg rest i hr hb hh hd => ?_, fun s i v rest hr hb hh => ?_, fun s b rest i hr hp ha hd => ?_⟩
  · rw [step_at_host hr (port_of_not_busy hb)]
    exact hostStep_of_decode_ok hh hd
  · rw [step_at_host hr (port_of_not_busy hb)]
    exact hostStep_writeX hb hh
  · rw [step_at_read hr hp]
    simp only [readStep, ha, hd]

end Sys2Proof.Machine
end

section
/-! SUPPORT. The tables of the read sites (R85 to R89): what each operation makes of a byte, in the terms of `Safety.lean`, then the
sites themselves. -/

namespace Sys2Proof.Machine

/-! ### The shared operations at a read site -/

/-- An expected-byte site in the order of its tests (R86, R88). -/
theorem expectByte_eq (e b : Byte) (site : Site) (m v s : State) :
    expectByte e b site m v s = if b = e then m else if b = 0x18 then failedWith (.peerAbort site) s else v := by
  rw [expectByte, raise_peerAbort]
  rfl

/-- A violation whose CAN write is a parameter (R227). -/
theorem violate_eq (emit : Bool) (p : Phase) (site : Site) (s : State) :
    violate emit p site s = if emit then { s with phase := p } else failedWith (.protocolViolation site) s := by
  rw [violate, raise_protocolViolation]
  rfl

theorem takeHeader_eq (b : Byte) (s : State) :
    takeHeader b s =
      if b = 0x01 then { s with phase := .rxSeq }
      else if b = 0x04 then { s with phase := .rxEotNak }
      else if b = 0x18 then failedWith (.peerAbort .rxHeader) s
      else failedWith (.protocolViolation .rxHeader) s := by
  rw [takeHeader, raise_peerAbort, raise_protocolViolation]
  rfl

/-- The handshake's NAK: the EOT exchange for `len = 0`, the first transmission otherwise (R162, R163, R165). -/
theorem afterHandshake_eq (s : State) :
    afterHandshake s = if s.len = 0 then { s with phase := .txEot1Send } else { s with attempt := 1, phase := .txSoh } := rfl

/-- The last ACK ends the transfer with the driver's count, or 0 (R164, R200). -/
theorem transferEnded_of_sender {s : State} (hc : s.cmd = .txPacket ∨ s.cmd = .transmit) :
    transferEnded s = returned (if s.cmd = .transmit then s.total else 0) .terminated s := by
  rcases hc with hc | hc <;> simp only [transferEnded, hc] <;> rfl

/-- An ACK advances `packet_number`; then the command ends, or TRANSMIT counts the packet and reads on (R168, R200, R202). -/
theorem packetSent_of_sender {s : State} (hc : s.cmd = .txPacket ∨ s.cmd = .transmit) :
    packetSent { s with packetNumber := s.packetNumber + 1 } =
      if s.cmd = .transmit then
        { s with packetNumber := s.packetNumber + 1, total := s.total + s.n, n := 0, phase := .trSrc }
      else returned 128 .idle { s with packetNumber := s.packetNumber + 1 } := by
  rcases hc with hc | hc <;> simp only [packetSent, hc] <;> rfl

theorem takeReply_eq (b : Byte) (s : State) :
    takeReply b s =
      if b = 0x06 then packetSent { s with packetNumber := s.packetNumber + 1 }
      else if b = 0x15 then
        (if s.attempt = 10 then failedWith (.retryExhausted .inner) s else { s with attempt := s.attempt + 1, phase := .txSoh })
      else if b = 0x18 then failedWith (.peerAbort .txReply) s
      else if s.config.emitCanTxReply then { s with phase := .txReplyCan }
      else failedWith (.protocolViolation .txReply) s := by
  rw [takeReply, raise_retryExhausted, raise_peerAbort, violate_eq]
  rfl

/-- The complement byte, as a number (R113). -/
theorem eq_complementOf_iff {b n : Byte} : b = complementOf n ↔ b.toNat = 255 - n.toNat := by
  unfold complementOf
  bv_omega

/-- 255 is no remainder modulo 255 (R112 a). -/
theorem cksum_ne_255 (d : List Byte) : cksum d ≠ 255 := by
  intro h
  have hlt : (cksum d).toNat < 255 := by
    rw [cksum, BitVec.toNat_umod]
    exact Nat.mod_lt _ (by decide)
  simp [h] at hlt

/-! ### The CAN write of a violation -/

section CanPhase

variable {s : State} {p : Phase} {site : Site} (hp : s.phase = p) (hc : p.canOf = some site)
include hp hc

/-- A CAN phase offers 0x18 to `CHAN_WR`. -/
theorem offers_can_of_canOf : s.phase.port = some .chanWr ∧ s.offeredByte = some 0x18 := by
  unfold Phase.canOf at hc
  split at hc
  case h_8 => cases hc
  all_goals exact ⟨by rw [hp]; rfl, by simp only [State.offeredByte, hp]⟩

/-- The accepted CAN ends the command with the violation of the phase's site (R227). -/
theorem byteWritten_of_canOf : byteWritten s = failedWith (.protocolViolation site) s := by
  unfold Phase.canOf at hc
  split at hc
  case h_8 => cases hc
  all_goals
    cases hc
    simp only [byteWritten, hp, raise_protocolViolation]
    rfl

end CanPhase

/-- Every CAN phase writes 0x18 and then reports its violation (R86, R88, R89). -/
theorem canThenViolation {p : Phase} {site : Site} (hc : p.canOf = some site) : CanThenViolation p site := by
  intro s rest hr hp ha
  obtain ⟨hport, hbyte⟩ := offers_can_of_canOf hp hc
  rw [step_writes_byte hr hport ha, hbyte]
  exact congrArg _ (byteWritten_of_canOf hp hc)

/-! ### The receiver's sites -/

/-- At a read site a step takes the byte, and what stands behind it is left in the channel. -/
theorem step_takes_byte {s : State} {p : Phase} {b : Byte} {rest : List ReadAnswer} (hr : s.resetPin = false)
    (hp : s.phase = p) (hport : p.port = some .chanRd) (ha : s.readAnswers = .byte b :: rest) :
    step s = .next (takeByte b (s.withChanRd rest)) := step_reads_byte hr (hp ▸ hport) ha

/-- Settles O11: the step takes the byte, and `takeHeader_eq` is the table. -/
theorem headerByteTable : Obligations.HeaderByteTable := by
  intro s b rest hr hp ha
  rw [step_takes_byte hr hp rfl ha, takeByte_rxHeader b (s := s.withChanRd rest) hp, takeHeader_eq]
  rfl

/-- Settles O12: a symbol takes its byte (`exec_symbol_at_read_site`), and `takeHeader_eq` is the table. -/
theorem symbolsAtTheHeaderSite : Obligations.SymbolsAtTheHeaderSite := by
  intro s hp
  have run {b : Byte} {i : Instr} (hd : decode (.wire [b]) = .ok i) : exec i s = .next (takeHeader b s) := by
    rw [exec_symbol_at_read_site hd (atChanRead_of_phase hp rfl), takeByte_rxHeader b hp]
  simp only [takeHeader_eq] at run
  exact ⟨run (b := 0x01) rfl, run (b := 0x04) rfl, run (b := 0x18) rfl, run (b := 0x06) rfl, run (b := 0x15) rfl⟩

/-- Settles O14: each site is `expectByte` of its byte. -/
theorem receiverExpectedByteTable : Obligations.ReceiverExpectedByteTable := by
  refine ⟨canThenViolation rfl, canThenViolation rfl, canThenViolation rfl, fun s b rest hr ha => ?_⟩
  refine ⟨fun hp => ?_, fun hp => ?_, fun hp => ?_⟩ <;> rw [step_takes_byte hr hp rfl ha]
  · rw [takeByte_rxSeq b (s := s.withChanRd rest) hp, expectByte_eq]
    rfl
  · rw [takeByte_rxCmp b (s := s.withChanRd rest) hp, expectByte_eq]
    simp only [eq_complementOf_iff]
    rfl
  · rw [takeByte_rxEot2 b (s := s.withChanRd rest) hp, expectByte_eq, violate_eq]
    rfl

/-- Every answer to a data read is stored (R87, R138). -/
theorem step_reads_data {s : State} {i : Fin dataLen} {a : ReadAnswer} {rest : List ReadAnswer} (hr : s.resetPin = false)
    (hp : s.phase = .rxData i) (ha : s.readAnswers = a :: rest) :
    step s = .next (takeData i a.dataValue { s with chanRd := rest }) := by
  cases a with
  | byte b => rw [step_takes_byte hr hp rfl ha, takeByte_rxData b (s := s.withChanRd rest) hp]; rfl
  | fail k =>
    rw [step_at_read hr (by rw [hp]; rfl)]
    simp only [readStep, ha]
    exact congrArg _ (readFailed_rxData (s := s.withChanRd rest) k hp)

/-- Settles O15: `step_reads_data`, and at the checksum byte `takeChecksum`. -/
theorem rawSitesTakeEveryByte : Obligations.RawSitesTakeEveryByte := by
  intro s rest hr
  refine ⟨fun i a hp ha => step_reads_data hr hp ha, fun b hp ha => ⟨?_, fun hn => ?_⟩⟩
  · rw [step_takes_byte hr hp rfl ha, takeByte_rxCksum b (s := s.withChanRd rest) hp]
    rfl
  · rw [hn]
    exact cksum_ne_255 _

/-! ### The sender's sites -/

/-- Settles O16: each site is `expectByte` of its byte, with what follows the match said once. -/
theorem senderExpectedByteTable : Obligations.SenderExpectedByteTable := by
  refine ⟨canThenViolation rfl, canThenViolation rfl, canThenViolation rfl, fun s b rest hr ha => ?_⟩
  refine ⟨fun hp => ?_, fun hp => ?_, fun hp hc => ?_⟩ <;> rw [step_takes_byte hr hp rfl ha]
  · rw [takeByte_txHandshake b (s := s.withChanRd rest) hp, expectByte_eq, violate_eq, afterHandshake_eq]
    rfl
  · rw [takeByte_txEot1 b (s := s.withChanRd rest) hp, expectByte_eq, violate_eq]
    rfl
  · rw [takeByte_txEot2 b (s := s.withChanRd rest) hp, expectByte_eq, violate_eq, transferEnded_of_sender (s := s.withChanRd rest) hc]
    rfl

/-- Settles O17: `takeReply_eq` is the table, and `packetSent_of_sender` what an ACK does in each command. -/
theorem replyByteTable : Obligations.ReplyByteTable := by
  refine ⟨canThenViolation rfl, fun s b rest hr hp ha hc => ?_⟩
  rw [step_takes_byte hr hp rfl ha, takeByte_txReply b (s := s.withChanRd rest) hp, takeReply_eq,
    packetSent_of_sender (s := s.withChanRd rest) hc]
  rfl

/-- Settles O13: a symbol takes its byte (`exec_symbol_at_read_site`), and `takeReply_eq` is the table. -/
theorem symbolsAtTheReplySite : Obligations.SymbolsAtTheReplySite := by
  intro s hp
  have run {b : Byte} {i : Instr} (hd : decode (.wire [b]) = .ok i) : exec i s = .next (takeReply b s) := by
    rw [exec_symbol_at_read_site hd (atChanRead_of_phase hp rfl), takeByte_txReply b hp]
  simp only [takeReply_eq] at run
  have hack : exec .ack s = .next (packetSent { s with packetNumber := s.packetNumber + 1 }) := run (b := 0x06) rfl
  have hnak : exec .nak s = .next (if s.attempt = 10 then failedWith (.retryExhausted .inner) s
      else { s with attempt := s.attempt + 1, phase := .txSoh }) := run (b := 0x15) rfl
  refine ⟨fun hc => ?_, fun hc => ?_, fun hn => ?_, fun hn => ?_, run (b := 0x18) rfl, fun i hi => ?_⟩
  · rw [hack, packetSent_of_sender (.inl hc), if_neg (by simp [hc])]
  · rw [hack, packetSent_of_sender (.inr hc), if_pos hc]
  · rw [hnak, if_neg hn]
  · rw [hnak, if_pos hn]
  · fin_cases hi
    exacts [run (b := 0x01) rfl, run (b := 0x04) rfl]

end Sys2Proof.Machine
end

section
/-! SUPPORT. A data frame at the header site (R82, R91, R137 to R140): the header byte by byte up to its first mismatch, then the data
and the checksum byte. -/

namespace Sys2Proof.Machine

/-! ### The packet buffer while a frame is read -/

/-- The vector `v` with its entries from `i` on replaced by `l`. -/
def overwriteFrom {α : Type} {n : Nat} (i : Nat) (l : List α) (v : Vector α n) (h : i + l.length = n) : Vector α n :=
  Vector.mk (v.toList.take i ++ l).toArray (by simp; omega)

section OverwriteFrom

variable {α : Type} {n : Nat} (v : Vector α n)

theorem overwriteFrom_nil (h : n + [].length = n) : overwriteFrom n [] v h = v := by
  apply Vector.toList_inj.mp
  simp [overwriteFrom]

theorem overwriteFrom_cons {i : Nat} (a : α) (l : List α) (h : i + (l.length + 1) = n) :
    overwriteFrom i (a :: l) v h = overwriteFrom (i + 1) l (v.set i a (by omega)) (by omega) := by
  have hi : i < v.toList.length := by rw [Vector.length_toList]; omega
  apply Vector.toList_inj.mp
  simp [overwriteFrom, Vector.toList_set, List.take_set_of_le, List.take_add_one, List.getElem?_set_self hi]

theorem overwriteFrom_zero (l : List α) (h : 0 + l.length = n) :
    overwriteFrom 0 l v h = Vector.mk l.toArray (by simpa using h) := by
  apply Vector.toList_inj.mp
  simp [overwriteFrom]

end OverwriteFrom

/-- The bytes `d` are stored from `x[i]` on (R138). -/
def State.loadFrom (i : Nat) (d : List Byte) (h : i + d.length = 128) (s : State) : State :=
  { s with
    x := overwriteFrom i d s.x h
    xWritten := overwriteFrom i (List.replicate d.length true) s.xWritten (by simpa using h) }

theorem loadFrom_nil (s : State) (h : 128 + [].length = 128) : s.loadFrom 128 [] h = s := by
  simp only [State.loadFrom, List.length_nil, List.replicate_zero, overwriteFrom_nil]

theorem loadFrom_cons {i : Nat} (b : Byte) (d : List Byte) (h : i + (d.length + 1) = 128) (s : State) :
    s.loadFrom i (b :: d) h = (s.setX ⟨i, show i < 128 by omega⟩ b).loadFrom (i + 1) d (by omega) := by
  simp only [State.loadFrom, List.length_cons, List.replicate_succ, overwriteFrom_cons]
  rfl

theorem loadFrom_zero {d : List Byte} (h : 0 + d.length = 128) (s : State) :
    s.loadFrom 0 d h = { s with
      x := Vector.mk d.toArray (by simpa using h)
      xWritten := Vector.replicate 128 true } := by
  have hd : d.length = 128 := by omega
  simp only [State.loadFrom, overwriteFrom_zero, hd]
  rfl

/-! ### The data and the checksum byte -/

/-- The phase in which data byte `i` is read, and after the last one the checksum byte (R130). -/
def dataPhase (i : Nat) : Phase := if h : i < dataLen then .rxData ⟨i, h⟩ else .rxCksum

/-- From data byte `i` on, the rest of the frame is stored and then checked, whatever its bytes (R87, R138 to R140). -/
theorem takeUnit_data (d : List Byte) (ck : Byte) {i : Nat} {s : State} (hp : s.phase = dataPhase i) (hd : i + d.length = 128) :
    takeUnit (d ++ [ck]) s = takeChecksum ck (s.loadFrom i d hd) := by
  induction d generalizing i s with
  | nil =>
    obtain rfl : i = 128 := hd
    have hck : s.phase = .rxCksum := hp
    rw [loadFrom_nil, List.nil_append, takeUnit_cons_of_read _ _ (atChanRead_of_phase hck rfl), takeUnit_nil,
      takeByte_rxCksum _ hck]
  | cons b d ih =>
    rw [List.length_cons] at hd
    have hi : i < 128 := by omega
    have hdata : s.phase = .rxData ⟨i, hi⟩ := by rw [hp, dataPhase, dif_pos hi]
    rw [loadFrom_cons b d hd, List.cons_append, takeUnit_cons_of_read _ _ (atChanRead_of_phase hdata rfl), takeByte_rxData b hdata]
    exact ih (i := i + 1) (s := takeData ⟨i, hi⟩ b s) rfl (by omega)

section Frame

variable {s : State} (seq cmp ck : Byte) {d : List Byte} (hd : d.length = 128)

/-- Away from the read sites the rest of the unit stays in the channel. -/
theorem takeUnit_of_wait (bs : List Byte) (h : s.atChanRead = false) :
    takeUnit bs s = { s with chanRd := bs.map .byte ++ s.chanRd } := by
  cases bs with
  | nil => rfl
  | cons b bs => exact takeUnit_cons_of_wait b bs h

/-- A wrong byte at an expected-byte site of the header: the command ends or goes to its CAN write, and the rest of the frame stays in
the channel (R86). -/
theorem takeUnit_expectByte_of_ne {e b : Byte} (h : b ≠ e) {p : Phase} (hp : (p.port == some .chanRd) = false) (site : Site)
    (m : State) (bs : List Byte) :
    takeUnit bs (expectByte e b site m (s.goto p) s) =
      if b = 0x18 then failedWith (.peerAbort site) { s with chanRd := bs.map .byte ++ s.chanRd }
      else { s with phase := p, chanRd := bs.map .byte ++ s.chanRd } := by
  rw [expectByte_eq, if_neg h]
  split
  · exact takeUnit_of_wait bs rfl
  · exact takeUnit_of_wait bs hp

/-- What a whole frame leaves: its data in `x`, and the ACK or the NAK to be written (R138 to R140). -/
def frameTaken (d : List Byte) (ck : Byte) (h : d.length = 128) (s : State) : State :=
  { s with
    x := Vector.mk d.toArray (by simpa using h)
    xWritten := Vector.replicate 128 true
    acc := sum8 d
    phase := if ck = checksumOf s.config d then .rxAck else .rxNak }

theorem takeUnit_from_data (hp : s.phase = .rxData 0) : takeUnit (d ++ [ck]) s = frameTaken d ck hd s := by
  rw [takeUnit_data d ck (i := 0) hp (by omega), loadFrom_zero]
  rfl

theorem takeUnit_from_cmp (hp : s.phase = .rxCmp) :
    takeUnit (cmp :: (d ++ [ck])) s =
      if cmp = complementOf s.packetNumber then frameTaken d ck hd s
      else if cmp = 0x18 then failedWith (.peerAbort .rxCmp) { s with chanRd := (d ++ [ck]).map .byte ++ s.chanRd }
      else { s with phase := .rxCmpCan, chanRd := (d ++ [ck]).map .byte ++ s.chanRd } := by
  rw [takeUnit_cons_of_read _ _ (atChanRead_of_phase hp rfl), takeByte_rxCmp _ hp]
  split
  · next hc =>
    rw [hc, expectByte_same, takeUnit_from_data ck hd rfl]
    rfl
  · next hc => exact takeUnit_expectByte_of_ne hc rfl _ _ _

theorem takeUnit_from_seq (hp : s.phase = .rxSeq) :
    takeUnit (seq :: cmp :: (d ++ [ck])) s =
      if seq = s.packetNumber then takeUnit (cmp :: (d ++ [ck])) (s.goto .rxCmp)
      else if seq = 0x18 then failedWith (.peerAbort .rxSeq) { s with chanRd := (cmp :: (d ++ [ck])).map .byte ++ s.chanRd }
      else { s with phase := .rxSeqCan, chanRd := (cmp :: (d ++ [ck])).map .byte ++ s.chanRd } := by
  rw [takeUnit_cons_of_read _ _ (atChanRead_of_phase hp rfl), takeByte_rxSeq _ hp]
  split
  · next hs => rw [hs, expectByte_same]
  · next hs => exact takeUnit_expectByte_of_ne hs rfl _ _ _

end Frame

/-- Settles O19: the frame is a wire unit, taken byte by byte from its header on. -/
theorem dataFrameAtTheHeaderSite : Obligations.DataFrameAtTheHeaderSite := by
  intro s seq cmp d ck hd hp
  have hsoh : takeByte sohByte s = s.goto .rxSeq := by rw [takeByte_rxHeader _ hp, takeHeader, if_pos rfl]
  have hexec : exec (.data seq cmp d ck) s = .next (takeUnit (seq :: cmp :: (d ++ [ck])) (s.goto .rxSeq)) := by
    rw [exec, execData, if_pos hd, frameBytes, takeUnit_cons_of_read _ _ (atChanRead_of_phase hp rfl), hsoh]
  rw [hexec, takeUnit_from_seq _ _ _ rfl, takeUnit_from_cmp _ _ hd rfl]
  simp only [eq_complementOf_iff]
  rfl

end Sys2Proof.Machine
end

section
/-! SUPPORT. The codec functions (R110 to R116): the checksum as arithmetic on its bytes' values and what it misses, the complement,
and which bytes are a well-formed frame. -/

namespace Sys2Proof.Machine

/-! ### The 8-bit sum -/

/-- The accumulator is the exact sum of the bytes' values, its carries discarded (R111). -/
theorem sum8_eq_ofNat (d : List Byte) : sum8 d = BitVec.ofNat 8 (d.map BitVec.toNat).sum := by
  induction d with
  | nil => rfl
  | cons b d ih => rw [sum8_cons, ih, List.map_cons, List.sum_cons, BitVec.ofNat_add, BitVec.ofNat_toNat, BitVec.setWidth_eq]

theorem sum8_perm {d e : List Byte} (h : d.Perm e) : sum8 d = sum8 e := by
  rw [sum8_eq_ofNat, sum8_eq_ofNat, (h.map BitVec.toNat).sum_nat]

/-- Replacing one byte moves the sum by the difference of the two. -/
theorem sum8_set_add {d : List Byte} {i : Nat} (h : i < d.length) (v : Byte) : sum8 (d.set i v) + d[i] = sum8 d + v := by
  induction d generalizing i with
  | nil => cases h
  | cons b d ih =>
    cases i with
    | zero =>
      simp only [List.set_cons_zero, List.getElem_cons_zero, sum8_cons]
      ac_rfl
    | succ i =>
      simp only [List.set_cons_succ, List.getElem_cons_succ, sum8_cons, add_assoc]
      rw [ih (Nat.lt_of_succ_lt_succ h)]

theorem sum8_set_ne {d : List Byte} {i : Nat} (h : i < d.length) {v : Byte} (hv : d[i] ≠ v) : sum8 (d.set i v) ≠ sum8 d := by
  intro he
  have hset := sum8_set_add h v
  rw [he] at hset
  exact hv (add_left_cancel hset)

/-! ### The normative checksum and what it misses -/

theorem toNat_cksum (d : List Byte) : (cksum d).toNat = (sum8 d).toNat % 255 := BitVec.toNat_umod

/-- The reduction modulo 255 identifies 0 and 255 and nothing else (R112 b). -/
theorem cksum_eq_iff (d e : List Byte) :
    cksum d = cksum e ↔ sum8 d = sum8 e ∨ (sum8 d = 0 ∧ sum8 e = 255) ∨ (sum8 d = 255 ∧ sum8 e = 0) := by
  have hd := (sum8 d).isLt
  have he := (sum8 e).isLt
  simp only [← BitVec.toNat_inj, toNat_cksum, BitVec.reduceToNat]
  omega

/-- The changed byte moves the sum (`sum8_set_ne`), so only the identified pair 0 and 255 is left (R112 c). -/
theorem cksum_set_eq_iff {d : List Byte} {i : Nat} (h : i < d.length) {v : Byte} (hv : d[i] ≠ v) :
    cksum (d.set i v) = cksum d ↔
      (sum8 d = 0 ∧ sum8 (d.set i v) = 255) ∨ (sum8 d = 255 ∧ sum8 (d.set i v) = 0) := by
  rw [eq_comm, cksum_eq_iff, or_iff_right (sum8_set_ne h hv).symm]

theorem cksum_perm {d e : List Byte} (h : d.Perm e) : cksum d = cksum e := by
  rw [cksum, cksum, sum8_perm h]

/-- Settles O7: what the sum does under a change, and that the reduction identifies 0 and 255 alone (`cksum_eq_iff`). -/
theorem checksumBlindSpots : Obligations.ChecksumBlindSpots :=
  ⟨cksum_ne_255, cksum_eq_iff, fun _ _ _ h hv => cksum_set_eq_iff h hv, fun _ _ h => cksum_perm h⟩

theorem cksum_eq_ofNat (d : List Byte) : cksum d = BitVec.ofNat 8 ((d.map BitVec.toNat).sum % 256 % 255) := by
  apply BitVec.eq_of_toNat_eq
  rw [toNat_cksum, sum8_eq_ofNat, BitVec.toNat_ofNat, BitVec.toNat_ofNat]
  omega

/-- Settles O6: `sum8` and `cksum` are arithmetic on the bytes' values. -/
theorem checksumIsWrappedSumModulo255 : Obligations.ChecksumIsWrappedSumModulo255 := by
  intro d s hd
  have hexec : exec (.checksum d) s = .next { s with acc := sum8 d, codecOut := .byte (checksumOf s.config d) } := if_pos hd
  refine ⟨?_, fun hnorm => ?_⟩
  · rw [hexec, sum8_eq_ofNat]
  · rw [hnorm, cksum_eq_ofNat]

/-! ### The complement -/

theorem complementOf_eq_ofNat (n : Byte) : complementOf n = BitVec.ofNat 8 (255 - n.toNat) := by
  unfold complementOf
  bv_omega

theorem toNat_add_toNat_complementOf (n : Byte) : n.toNat + (complementOf n).toNat = 255 := by
  have hn := n.isLt
  have hc : (complementOf n).toNat = 255 - n.toNat := eq_complementOf_iff.mp rfl
  omega

theorem complementOf_eq_not (n : Byte) : complementOf n = ~~~n := by
  unfold complementOf
  bv_omega

/-- Settles O8, by the three readings of `complementOf`. -/
theorem complementIs255MinusN : Obligations.ComplementIs255MinusN := by
  intro n s
  rw [← complementOf_eq_ofNat]
  exact ⟨rfl, complementOf_eq_not n, toNat_add_toNat_complementOf n⟩

/-! ### Frames -/

/-- The bytes of a frame in R115's own form. -/
theorem frameOf_eq (c : Config) (n : Byte) (d : List Byte) :
    frameOf c n d = [0x01, n, BitVec.ofNat 8 (255 - n.toNat)] ++ d ++ [checksumOf c d] := by
  rw [← complementOf_eq_ofNat]
  rfl

/-- Settles O9: `frameOf` in R115's own form. -/
theorem frameLayout : Obligations.FrameLayout := by
  intro n d s hd
  rw [← frameOf_eq]
  refine ⟨if_pos hd, ?_⟩
  rw [frameOf, length_frameBytes, hd]

/-- R116's four tests. -/
theorem frameWellFormed_iff (c : Config) (n : Byte) (f : List Byte) :
    frameWellFormed c n f = true ↔
      f[0]? = some 0x01 ∧ f[1]? = some n ∧ f[2]? = some (complementOf n) ∧
        f[131]? = some (checksumOf c (frameData f)) := by
  simp only [frameWellFormed, Bool.and_eq_true, beq_iff_eq, and_assoc]
  rfl

/-- DEFRAME gives the data of a well-formed frame and of no other. -/
theorem deframeOf_eq_some_iff (c : Config) (n : Byte) (f : List Byte) :
    deframeOf c n f = some (frameData f) ↔ frameWellFormed c n f = true := by
  simp [deframeOf]

theorem deframeOf_eq_some_or_none (c : Config) (n : Byte) (f : List Byte) :
    deframeOf c n f = some (frameData f) ∨ deframeOf c n f = none := ite_eq_or_eq ..

section FrameOf

variable (c : Config) (m n : Byte) {d : List Byte} (hd : d.length = 128)
include hd

theorem frameData_frameOf : frameData (frameOf c n d) = d := List.take_left' hd

/-- A frame is well formed exactly for its own packet number. -/
theorem frameWellFormed_frameOf : frameWellFormed c m (frameOf c n d) = true ↔ m = n := by
  have hck : (frameOf c n d)[131]? = some (checksumOf c d) := by
    simp [frameOf, frameBytes, hd]
  have hseq : (frameOf c n d)[1]? = some m ↔ m = n := by
    simp [frameOf, frameBytes, eq_comm]
  rw [frameWellFormed_iff, frameData_frameOf c n hd, hseq, hck]
  constructor
  · rintro ⟨-, hmn, -⟩
    exact hmn
  · rintro rfl
    exact ⟨rfl, rfl, rfl, rfl⟩

theorem deframeOf_frameOf : deframeOf c n (frameOf c n d) = some d := by
  rw [deframeOf, if_pos ((frameWellFormed_frameOf c n n hd).mpr rfl), frameData_frameOf c n hd]

theorem deframeOf_frameOf_other (h : m ≠ n) : deframeOf c m (frameOf c n d) = none :=
  if_neg fun hw => h ((frameWellFormed_frameOf c m n hd).mp hw)

end FrameOf

/-- Settles O10: R116's tests (`frameWellFormed_iff`), and that a frame passes them for its own number alone. -/
theorem deframeAcceptsExactlyWellFormedFrames : Obligations.DeframeAcceptsExactlyWellFormedFrames := by
  refine ⟨fun n f s hf => ⟨if_pos hf, ?_, deframeOf_eq_some_or_none s.config n f⟩,
    fun c n d hd => deframeOf_frameOf c n hd, fun c m n d hd h => deframeOf_frameOf_other c m n hd h⟩
  rw [← complementOf_eq_ofNat]
  exact (deframeOf_eq_some_iff s.config n f).trans (frameWellFormed_iff s.config n f)

end Sys2Proof.Machine
end

section
/-! SUPPORT. The receiver's commands and channel writes (R131, R132, R134, R136, R141, R142, R147): the admission of RX_PACKET, and
what follows each write, accepted or failed. -/

namespace Sys2Proof.Machine

/-! ### RX_PACKET as it is given -/

/-- An idle engine that serves no sender takes RX_PACKET; the buffer check comes first (R131, R147). -/
theorem exec_rxPacket_of_admitted {s : State} (hp : s.phase = .idle) (hrole : s.role ≠ some .sender) (cap : Nat) :
    exec (.rxPacket cap) s = .next
      (if cap < 128 then
        failedWith (.contractViolation .rxBufferTooSmall) { s with cmd := .rxPacket, len := cap, role := some .receiver }
       else startRx { s with cmd := .rxPacket, len := cap, role := some .receiver }) := by
  have hrole' : s.role = none ∨ s.role = some .receiver := by
    cases hr : s.role with
    | none => exact .inl rfl
    | some r => cases r <;> simp_all
  have hadmit : refusalRx s = none := refusalPacket_eq_none.mpr ⟨hp, hrole'⟩
  simp only [exec, execRxPacket, hadmit, rxBufferTooSmall, decide_eq_true_eq, raise_contractViolation]
  rfl

/-- A terminated engine refuses packet commands (R29, R147, R174). -/
theorem refusalPacket_of_terminated {s : State} (hp : s.phase = .terminated) (r : Role) :
    refusalPacket r s = some .terminated := by
  simp [refusalPacket, State.busy, State.terminatedFlag, hp]

/-- An idle engine that serves one role refuses the packet command of the other (R147, R174, R245). -/
theorem refusalPacket_of_other_role {s : State} {r q : Role} (hp : s.phase = .idle) (hq : s.role = some q) (hne : q ≠ r) :
    refusalPacket r s = some .wrongRole := by
  simp [refusalPacket, State.busy, State.terminatedFlag, hp, hq, hne]

/-- Settles O28: the refusals of `refusalPacket`, and the buffer check of `exec_rxPacket_of_admitted`. -/
theorem rxPacketAdmissionAndBufferCheck : Obligations.RxPacketAdmissionAndBufferCheck := by
  intro s cap
  refine ⟨fun hb => exec_command_of_busy hb rfl, fun hp => ?_, fun hp hrole => ?_, fun hp hrole hcap => ?_⟩
  · simp only [exec, execRxPacket, refusalRx, refusalPacket_of_terminated hp]
  · simp only [exec, execRxPacket, refusalRx, refusalPacket_of_other_role hp hrole (r := .receiver) nofun]
  · rw [exec_rxPacket_of_admitted hp hrole, if_pos hcap]

/-- RX_PACKET with room for a packet begins with the handshake NAK if it is due, and with the header read if not (R132). -/
theorem exec_rxPacket_starts {s : State} (hp : s.phase = .idle) (hrole : s.role ≠ some .sender) {cap : Nat} (hcap : 128 ≤ cap) :
    exec (.rxPacket cap) s = .next { s with
      cmd := .rxPacket, len := cap, role := some .receiver
      phase := if s.handshakeDone then .rxHeader else .rxHsNak } := by
  rw [exec_rxPacket_of_admitted hp hrole, if_neg (by omega)]
  cases s.handshakeDone <;> rfl

/-! ### A channel write at a known phase -/

section WriteSite

variable {s : State} {p : Phase} (hr : s.resetPin = false) (hp : s.phase = p) (hport : p.port = some .chanWr) {b : Byte}
  (hb : s.offeredByte = some b)
include hr hp hport hb

/-- The write accepted: the byte the phase offers is appended, and the command goes on. -/
theorem step_write_accepted {rest : List WriteAnswer} (ha : s.writeAnswers = .accepted :: rest) :
    step s = .next (byteWritten { s with chanWrAns := rest, chanWr := s.chanWr ++ [b] }) := by
  rw [step_writes_byte hr (hp ▸ hport) ha, hb]
  rfl

/-- The write failed, outside TRANSMIT: the command ends with the `IoFailure` of the site, whether the byte went out or not (R54,
R225, R243). -/
theorem step_write_failed {site : Site} (hsite : p.site = some site) (hc : s.cmd ≠ .transmit) {k : IoKind} {wentOut : Bool}
    {rest : List WriteAnswer} (ha : s.writeAnswers = .fail k wentOut :: rest) :
    step s = .next (failedWith (.ioFailure .chanWr k site) { s with
      chanWrAns := rest, chanWr := if wentOut then s.chanWr ++ [b] else s.chanWr }) := by
  rw [step_at_write hr (hp ▸ hport), writeStep, ha, hb]
  dsimp only
  rw [writeFailed_of_site k (hp ▸ hsite)]
  exact congrArg _ (raise_ioFailure_of_no_retry (.inl hc))

end WriteSite

theorem not_transmit_of_receiver {s : State} (hc : s.cmd = .rxPacket ∨ s.cmd = .receive) : s.cmd ≠ .transmit := by
  rcases hc with hc | hc <;> simp [hc]

/-- After the ACK of a packet RECEIVE goes on to the sink, and RX_PACKET ends (R141, R195). -/
theorem packetReceived_of_receiver {s : State} (hc : s.cmd = .rxPacket ∨ s.cmd = .receive) :
    packetReceived s = if s.cmd = .receive then s.goto .rcSink else returned 128 .idle s := by
  rcases hc with hc | hc <;> simp only [packetReceived, hc] <;> rfl

/-- After the ACK of the second EOT the command ends with its count, 0 for RX_PACKET (R136, R195). -/
theorem transferEnded_of_receiver {s : State} (hc : s.cmd = .rxPacket ∨ s.cmd = .receive) :
    transferEnded s = returned (if s.cmd = .receive then s.total else 0) .terminated s := by
  rcases hc with hc | hc <;> simp only [transferEnded, hc] <;> rfl

/-! What follows the accepted write at each of the receiver's sites. -/

theorem byteWritten_rxHsNak {s : State} (hp : s.phase = .rxHsNak) :
    byteWritten s = { s with handshakeDone := true, phase := .rxHeader } := by
  simp only [byteWritten, hp]

theorem byteWritten_rxNak {s : State} (hp : s.phase = .rxNak) : byteWritten s = { s with phase := .rxHeader } := by
  simp only [byteWritten, hp, State.goto]

theorem byteWritten_rxEotNak {s : State} (hp : s.phase = .rxEotNak) : byteWritten s = { s with phase := .rxEot2 } := by
  simp only [byteWritten, hp, State.goto]

theorem byteWritten_rxAck {s : State} (hp : s.phase = .rxAck) :
    byteWritten s = packetReceived { s with packetNumber := nextPacket s.packetNumber } := by
  simp only [byteWritten, hp]

theorem byteWritten_rxEotAck {s : State} (hp : s.phase = .rxEotAck) : byteWritten s = transferEnded s := by
  simp only [byteWritten, hp]

/-! ### The statements -/

/-- Settles O20: the accepted ACK is `byteWritten_rxAck`, the failed one `step_write_failed`. -/
theorem acceptAcknowledgesThenAdvances : Obligations.AcceptAcknowledgesThenAdvances := by
  intro s hr hp hc
  have hack : s.offeredByte = some 0x06 := by simp only [State.offeredByte, hp]
  refine ⟨fun rest ha => ?_, fun k wentOut rest ha => ?_⟩
  · rw [step_write_accepted hr hp rfl hack ha, byteWritten_rxAck (by exact hp), packetReceived_of_receiver (by exact hc),
      nextPacket_eq]
    rfl
  · exact step_write_failed hr hp rfl hack rfl (not_transmit_of_receiver hc) ha

/-- Settles O21: the NAK is accepted, and `byteWritten_rxNak` goes back to the header. -/
theorem rejectNaksAndReadsAgain : Obligations.RejectNaksAndReadsAgain := by
  intro s rest hr hp ha
  have hnak : s.offeredByte = some 0x15 := by simp only [State.offeredByte, hp]
  rw [step_write_accepted hr hp rfl hnak ha, byteWritten_rxNak (by exact hp)]

/-- Settles O22: `exec_rxPacket_starts`, and the two outcomes of the handshake's write. -/
theorem handshakeNakWrittenOnce : Obligations.HandshakeNakWrittenOnce := by
  refine ⟨fun s cap hp hrole hcap => exec_rxPacket_starts hp hrole hcap, fun s hr hp => ?_⟩
  have hnak : s.offeredByte = some 0x15 := by simp only [State.offeredByte, hp]
  refine ⟨fun rest ha => ?_, fun k wentOut rest hc ha => ?_⟩
  · rw [step_write_accepted hr hp rfl hnak ha, byteWritten_rxHsNak (by exact hp)]
  · exact step_write_failed hr hp rfl hnak rfl (not_transmit_of_receiver hc) ha

/-- Settles O23: the NAK of the first EOT, and the two outcomes of the ACK of the second. -/
theorem receiverTermination : Obligations.ReceiverTermination := by
  intro s hr
  have hack (hp : s.phase = .rxEotAck) : s.offeredByte = some 0x06 := by simp only [State.offeredByte, hp]
  refine ⟨fun rest hp ha => ?_, fun rest hp hc ha => ?_, fun k wentOut rest hp hc ha => ?_⟩
  · have hnak : s.offeredByte = some 0x15 := by simp only [State.offeredByte, hp]
    rw [step_write_accepted hr hp rfl hnak ha, byteWritten_rxEotNak (by exact hp)]
  · rw [step_write_accepted hr hp rfl (hack hp) ha, byteWritten_rxEotAck (by exact hp),
      transferEnded_of_receiver (by exact hc)]
  · exact step_write_failed hr hp rfl (hack hp) rfl (not_transmit_of_receiver hc) ha

end Sys2Proof.Machine
end

section
/-! SUPPORT. RX_PACKET from its first read to its end (R130, R137 to R144, R273): the run over one frame, over any number of rejected
frames, and over rejected frames for ever. -/

namespace Sys2Proof.Machine

/-! ### Runs that keep a property on the way -/

/-- `k` steps lead from the one state to the other, and every state before the last one meets `P`. -/
inductive RunsThrough (P : State → Prop) : Nat → State → State → Prop
  | refl (s : State) : RunsThrough P 0 s s
  | cons {k : Nat} {s u t : State} (hs : P s) (hstep : step s = .next u) (h : RunsThrough P k u t) : RunsThrough P (k + 1) s t

namespace RunsThrough

variable {P : State → Prop} {j k : Nat} {s u t : State}

theorem single (hs : P s) (hstep : step s = .next t) : RunsThrough P 1 s t := .cons hs hstep (.refl t)

theorem runSteps_eq (h : RunsThrough P k s t) : runSteps k s = .next t := by
  induction h with
  | refl s => rfl
  | cons _ hstep _ ih => rw [runSteps_succ_of_next hstep, ih]

theorem trans (h : RunsThrough P j s u) (h' : RunsThrough P k u t) : RunsThrough P (k + j) s t := by
  induction h with
  | refl s => exact h'
  | cons hs hstep _ ih => exact .cons hs hstep (ih h')

/-- Cut short, the run ends in a state that meets `P`. -/
theorem visits (h : RunsThrough P k s t) (hj : j < k) : ∃ u, runSteps j s = .next u ∧ P u := by
  induction h generalizing j with
  | refl s => cases hj
  | cons hs hstep _ ih =>
    cases j with
    | zero => exact ⟨_, rfl, hs⟩
    | succ j =>
      rw [runSteps_succ_of_next hstep]
      exact ih (Nat.lt_of_succ_lt_succ hj)

end RunsThrough

/-- The command in progress in `s` is still running in `u`, with nothing to show for it yet (R143). -/
def GoesOn (s u : State) : Prop :=
  u.busy = true ∧ u.cmd = s.cmd ∧ u.packetNumber = s.packetNumber ∧ u.result = s.result ∧ u.resultValid = s.resultValid

theorem busy_at_header {s : State} (hp : s.phase = .rxHeader) : s.busy = true := by simp [State.busy, hp]

theorem goesOn_self {s : State} (hb : s.busy = true) : GoesOn s s := ⟨hb, rfl, rfl, rfl, rfl⟩

theorem GoesOn.of_same_registers {s u t : State} (h : GoesOn s u) (hb : t.busy = true) (hc : t.cmd = u.cmd)
    (hn : t.packetNumber = u.packetNumber) (hr : t.result = u.result) (hv : t.resultValid = u.resultValid) : GoesOn s t := by
  obtain ⟨-, hc', hn', hr', hv'⟩ := h
  exact ⟨hb, hc.trans hc', hn.trans hn', hr.trans hr', hv.trans hv'⟩

/-! ### One frame -/

theorem takeData_busy (i : Fin dataLen) (b : Byte) (s : State) : (takeData i b s).busy = true := by
  unfold takeData nextRxData
  split <;> rfl

section TakesByte

variable {s t : State} {p : Phase} {b : Byte} (hr : s.resetPin = false) (hp : s.phase = p) (hport : p.port = some .chanRd)
include hr hp hport

/-- A read site's step, where what the byte does is known without the channel (`takeByte_withChanRd`). -/
theorem step_of_takeByte_eq {rest : List ReadAnswer} (ha : s.readAnswers = .byte b :: rest) (ht : takeByte b s = t) :
    step s = .next (t.withChanRd rest) := by
  rw [step_takes_byte hr hp hport ha, takeByte_withChanRd, ht]

/-- The same with the byte at the head of `CHAN_RD`. -/
theorem step_withChanRd_of_takeByte_eq (ht : takeByte b s = t) (rest : List ReadAnswer) :
    step (s.withChanRd (.byte b :: rest)) = .next (t.withChanRd rest) := by
  rw [← ht, ← takeByte_withChanRd]
  exact step_takes_byte (s := s.withChanRd (.byte b :: rest)) hr hp hport (readAnswers_of_cons rfl)

end TakesByte

/-- The header is read again, with `k` NAKs written since `s`, `x` and `acc` as the frames left them, and the answers that are left
(R142). -/
def State.backAtHeader (s : State) (x : Buffer) (w : Vector Bool dataLen) (a : Byte) (rd : List ReadAnswer)
    (wr : List WriteAnswer) (k : Nat) : State :=
  { s with
    x := x
    xWritten := w
    acc := a
    phase := .rxHeader
    chanRd := rd
    chanWrAns := wr
    chanWr := s.chanWr ++ List.replicate k 0x15 }

theorem backAtHeader_backAtHeader (s : State) (x x' : Buffer) (w w' : Vector Bool dataLen) (a a' : Byte)
    (rd rd' : List ReadAnswer) (wr wr' : List WriteAnswer) (j k : Nat) :
    (s.backAtHeader x w a rd wr j).backAtHeader x' w' a' rd' wr' k = s.backAtHeader x' w' a' rd' wr' (j + k) := by
  simp only [State.backAtHeader, List.append_assoc, List.replicate_append_replicate]

/-- With nothing read or written, nothing has changed. -/
theorem backAtHeader_zero {s : State} (hp : s.phase = .rxHeader) :
    s.backAtHeader s.x s.xWritten s.acc s.chanRd s.chanWrAns 0 = s := by
  simp only [State.backAtHeader, List.replicate_zero, List.append_nil, ← hp]

section Frame

variable {s₀ s : State} (hr : s.resetPin = false) (hg : GoesOn s₀ s)
include hr hg

/-- From data byte `i` on, the answers are stored whatever they are, and then the checksum byte is read (R138 to R140). -/
theorem runsThrough_data (answers : List ReadAnswer) (ck : Byte) (rest : List ReadAnswer) {i : Nat} (hp : s.phase = dataPhase i)
    (hlen : i + answers.length = 128) :
    RunsThrough (GoesOn s₀) (answers.length + 1) (s.withChanRd (answers ++ .byte ck :: rest))
      ((takeChecksum ck (s.loadFrom i (answers.map ReadAnswer.dataValue) (by simpa using hlen))).withChanRd rest) := by
  induction answers generalizing i s with
  | nil =>
    obtain rfl : i = 128 := hlen
    have hck : s.phase = .rxCksum := hp
    simp only [List.map_nil, loadFrom_nil]
    exact .single hg (step_withChanRd_of_takeByte_eq hr hck rfl (takeByte_rxCksum ck hck) rest)
  | cons a answers ih =>
    rw [List.length_cons] at hlen
    have hi : i < 128 := by omega
    have hdata : s.phase = .rxData ⟨i, hi⟩ := by rw [hp, dataPhase, dif_pos hi]
    refine .cons hg (step_reads_data hr hdata (readAnswers_of_cons rfl)) ?_
    simp only [List.map_cons, loadFrom_cons]
    exact ih (i := i + 1) (s := takeData ⟨i, hi⟩ a.dataValue s) hr
      (hg.of_same_registers (takeData_busy ..) rfl rfl rfl rfl) rfl (by omega)

/-- The 132 reads of a frame with the expected header (R137 to R140). -/
theorem runsThrough_frame {answers : List ReadAnswer} (hlen : answers.length = 128) (ck : Byte) (rest : List ReadAnswer)
    (hp : s.phase = .rxHeader)
    (ha : s.readAnswers =
      .byte 0x01 :: .byte s.packetNumber :: .byte (complementOf s.packetNumber) :: (answers ++ .byte ck :: rest)) :
    RunsThrough (GoesOn s₀) 132 s
      ((frameTaken (answers.map ReadAnswer.dataValue) ck (by simpa using hlen) s).withChanRd rest) := by
  have at_phase (p : Phase) (hbusy : (s.goto p).busy = true) : GoesOn s₀ (s.goto p) :=
    hg.of_same_registers hbusy rfl rfl rfl rfl
  have hdata := runsThrough_data (s := s.goto (.rxData 0)) hr (at_phase _ rfl) answers ck rest (i := 0) rfl (by omega)
  simp only [hlen, loadFrom_zero] at hdata
  have hsoh : takeByte 0x01 s = s.goto .rxSeq := by rw [takeByte_rxHeader _ hp, takeHeader, if_pos rfl]
  have hseq : takeByte s.packetNumber (s.goto .rxSeq) = s.goto .rxCmp := by
    rw [takeByte_rxSeq _ rfl]
    exact expectByte_same ..
  have hcmp : takeByte (complementOf s.packetNumber) (s.goto .rxCmp) = s.goto (.rxData 0) := by
    rw [takeByte_rxCmp _ rfl]
    exact expectByte_same ..
  exact .cons hg (step_of_takeByte_eq hr hp rfl ha hsoh)
    (.cons (at_phase .rxSeq rfl) (step_withChanRd_of_takeByte_eq (s := s.goto .rxSeq) hr rfl rfl hseq _)
      (.cons (at_phase .rxCmp rfl) (step_withChanRd_of_takeByte_eq (s := s.goto .rxCmp) hr rfl rfl hcmp _) hdata))

/-- The same for a frame that arrives as bytes (R82). -/
theorem runsThrough_frameBytes {d : List Byte} (hd : d.length = 128) {ck : Byte} {rest : List ReadAnswer}
    (hp : s.phase = .rxHeader)
    (ha : s.readAnswers = (frameBytes s.packetNumber (complementOf s.packetNumber) d ck).map .byte ++ rest) :
    RunsThrough (GoesOn s₀) 132 s ((frameTaken d ck hd s).withChanRd rest) := by
  have hdata : (d.map ReadAnswer.byte).map ReadAnswer.dataValue = d := by
    rw [List.map_map]
    exact List.map_id d
  have hrun := runsThrough_frame hr hg (answers := d.map .byte) (by simpa using hd) ck rest hp
    (by rw [ha]; simp [frameBytes])
  simpa only [hdata] using hrun

/-- A frame with the expected header and a wrong checksum: it is read, answered with NAK, and the header is read again (R140, R142). -/
theorem runsThrough_rejected {d : List Byte} (hd : d.length = 128) {ck : Byte} (hck : ck ≠ checksumOf s.config d)
    {rest : List ReadAnswer} {restW : List WriteAnswer} (hp : s.phase = .rxHeader)
    (ha : s.readAnswers = (frameBytes s.packetNumber (complementOf s.packetNumber) d ck).map .byte ++ rest)
    (hw : s.writeAnswers = .accepted :: restW) :
    RunsThrough (GoesOn s₀) 133 s
      (s.backAtHeader (.mk d.toArray (by simpa using hd)) (.replicate 128 true) (sum8 d) rest restW 1) := by
  have hnak : (frameTaken d ck hd s).phase = .rxNak := if_neg hck
  have hgo : GoesOn s₀ (frameTaken d ck hd s) :=
    hg.of_same_registers (by rw [State.busy, hnak]; rfl) rfl rfl rfl rfl
  refine (runsThrough_frameBytes hr hg hd hp ha).trans (j := 132) (k := 1) (.single hgo ?_)
  exact rejectNaksAndReadsAgain ((frameTaken d ck hd s).withChanRd rest) restW hr hnak hw

end Frame

/-- A frame with the expected header and the right checksum: it is read and acknowledged, and `packet_number` advances (R139, R141). -/
theorem runSteps_accepted {s : State} {d : List Byte} (hd : d.length = 128) (hr : s.resetPin = false) (hp : s.phase = .rxHeader)
    {rest : List ReadAnswer} {restW : List WriteAnswer}
    (ha : s.readAnswers = (frameOf s.config s.packetNumber d).map .byte ++ rest)
    (hw : s.writeAnswers = .accepted :: restW) :
    runSteps 133 s = .next (packetReceived { s with
      x := Vector.mk d.toArray (by simpa using hd)
      xWritten := Vector.replicate 128 true
      acc := sum8 d
      packetNumber := nextPacket s.packetNumber
      phase := .rxAck
      chanRd := rest
      chanWrAns := restW
      chanWr := s.chanWr ++ [0x06] }) := by
  have hread := runsThrough_frameBytes hr (goesOn_self (busy_at_header hp)) hd hp ha
  have htaken : frameTaken d (checksumOf s.config d) hd s = (frameTaken d (checksumOf s.config d) hd s).goto .rxAck := by
    simp [frameTaken, State.goto]
  rw [htaken] at hread
  have hstep := step_write_accepted (s := ((frameTaken d (checksumOf s.config d) hd s).goto .rxAck).withChanRd rest) (b := 0x06)
    hr rfl rfl rfl hw
  rw [byteWritten_rxAck rfl] at hstep
  rw [runSteps_add_of_next (k := 1) hread.runSteps_eq]
  exact runSteps_succ_of_next hstep

/-- Settles O33: the run of `runsThrough_frame`, with the frame listed in `CHAN_RD`. -/
theorem frameReadByteByByte : Obligations.FrameReadByteByByte := by
  intro s answers hlen ck rest hr hp hc
  exact (runsThrough_frame hr (goesOn_self (busy_at_header hp)) hlen ck rest hp (readAnswers_of_cons (by rw [hc]; simp))).runSteps_eq

/-! ### Rejected frames, and then a good one -/

/-- The bytes of frames that carry the expected header (R82). -/
def framesNumbered (n : Byte) (frames : List (List Byte × Byte)) : List ReadAnswer :=
  frames.flatMap fun p => (frameBytes n (complementOf n) p.1 p.2).map .byte

theorem framesNumbered_cons (n : Byte) (p : List Byte × Byte) (frames : List (List Byte × Byte)) :
    framesNumbered n (p :: frames) = (frameBytes n (complementOf n) p.1 p.2).map .byte ++ framesNumbered n frames := rfl

/-- The frame's bytes are the next answers, where `CHAN_RD` begins with them. -/
theorem readAnswers_of_frame {s : State} {seq cmp ck : Byte} {d : List Byte} {rest : List ReadAnswer}
    (h : s.chanRd = (frameBytes seq cmp d ck).map .byte ++ rest) :
    s.readAnswers = (frameBytes seq cmp d ck).map .byte ++ rest := readAnswers_of_cons h

/-- Any number of rejected frames leads back to the header read, with one NAK written for each (R142, R143). -/
theorem runSteps_rejectedFrames (bad : List (List Byte × Byte)) {s : State} {tail : List ReadAnswer} {restW : List WriteAnswer}
    (hr : s.resetPin = false) (hp : s.phase = .rxHeader)
    (hbad : ∀ p ∈ bad, p.1.length = 128 ∧ p.2 ≠ checksumOf s.config p.1)
    (hc : s.chanRd = framesNumbered s.packetNumber bad ++ tail) (hw : s.chanWrAns = accepts bad.length ++ restW) :
    ∃ x w a, runSteps (133 * bad.length) s = .next (s.backAtHeader x w a tail restW bad.length) := by
  induction bad generalizing s with
  | nil =>
    obtain rfl : s.chanRd = tail := hc
    obtain rfl : s.chanWrAns = restW := hw
    exact ⟨s.x, s.xWritten, s.acc, by rw [List.length_nil, backAtHeader_zero hp]; rfl⟩
  | cons p bad ih =>
    obtain ⟨⟨hd, hck⟩, hbad'⟩ := List.forall_mem_cons.mp hbad
    rw [framesNumbered_cons, List.append_assoc] at hc
    have hround := (runsThrough_rejected hr (goesOn_self (busy_at_header hp)) hd hck hp (readAnswers_of_frame hc)
      (restW := accepts bad.length ++ restW) (writeAnswers_of_cons hw)).runSteps_eq
    obtain ⟨x, w, a, hrun⟩ := ih (s := s.backAtHeader (.mk p.1.toArray (by simpa using hd)) (.replicate 128 true) (sum8 p.1)
      (framesNumbered s.packetNumber bad ++ tail) (accepts bad.length ++ restW) 1) hr rfl hbad' rfl rfl
    refine ⟨x, w, a, ?_⟩
    rw [List.length_cons, Nat.mul_succ, Nat.add_comm, runSteps_add_of_next hround, hrun, backAtHeader_backAtHeader,
      Nat.add_comm]

/-- RX_PACKET from its header read to its end, through the frames it rejects (R130, R142 to R144). -/
theorem runSteps_retries {s : State} {bad : List (List Byte × Byte)} {d : List Byte} (hd : d.length = 128)
    {rest : List ReadAnswer} {restW : List WriteAnswer} (hr : s.resetPin = false) (hp : s.phase = .rxHeader) (hcmd : s.cmd = .rxPacket)
    (hbad : ∀ p ∈ bad, p.1.length = 128 ∧ p.2 ≠ checksumOf s.config p.1)
    (hc : s.chanRd = framesNumbered s.packetNumber bad ++ (frameOf s.config s.packetNumber d).map .byte ++ rest)
    (hw : s.chanWrAns = accepts (bad.length + 1) ++ restW) :
    runSteps (133 * bad.length + 133) s = .next (returned 128 .idle { s with
      packetNumber := s.packetNumber + 1
      x := Vector.mk d.toArray (by simpa using hd)
      xWritten := Vector.replicate 128 true
      acc := sum8 d
      chanRd := rest
      chanWrAns := restW
      chanWr := s.chanWr ++ List.replicate bad.length 0x15 ++ [0x06] }) := by
  rw [List.append_assoc] at hc
  have hw' : s.chanWrAns = accepts bad.length ++ .accepted :: restW := by
    rw [hw, accepts, List.replicate_succ', List.append_assoc]
    rfl
  obtain ⟨x, w, a, hrejects⟩ := runSteps_rejectedFrames bad hr hp hbad hc hw'
  have haccept := runSteps_accepted (s := s.backAtHeader x w a ((frameOf s.config s.packetNumber d).map .byte ++ rest)
    (.accepted :: restW) bad.length) hd hr rfl (readAnswers_of_frame rfl) (writeAnswers_of_cons rfl)
  rw [runSteps_add_of_next hrejects, haccept, packetReceived_of_receiver (.inl (by exact hcmd)),
    if_neg (by simp [State.backAtHeader, hcmd])]
  rfl

/-- RX_PACKET at its header read: the handshake NAK has been written if it was due (R132). -/
def State.atRxHeader (s : State) (cap : Nat) (wr : List WriteAnswer) : State :=
  { s with
    cmd := .rxPacket
    len := cap
    role := some .receiver
    handshakeDone := true
    phase := .rxHeader
    chanWrAns := wr
    chanWr := s.chanWr ++ List.replicate (if s.handshakeDone then 0 else 1) 0x15 }

/-- RX_PACKET reaches its header read, by the handshake NAK if it is due (R130, R132). -/
theorem rxPacket_reaches_header {s : State} {cap : Nat} (hr : s.resetPin = false) (hp : s.phase = .idle)
    (hrole : s.role ≠ some .sender) (hcap : 128 ≤ cap) {wr : List WriteAnswer}
    (hw : if s.handshakeDone then s.chanWrAns = wr else s.writeAnswers = .accepted :: wr) :
    ∃ t, exec (.rxPacket cap) s = .next t ∧
      RunsThrough (GoesOn { s with cmd := .rxPacket }) (if s.handshakeDone then 0 else 1) t (s.atRxHeader cap wr) := by
  refine ⟨_, exec_rxPacket_starts hp hrole hcap, ?_⟩
  by_cases hdone : s.handshakeDone = true
  · simp only [hdone, if_true] at hw ⊢
    have hsame : s.atRxHeader cap wr =
        { s with cmd := .rxPacket, len := cap, role := some .receiver, handshakeDone := true, phase := .rxHeader } := by
      simp [State.atRxHeader, hdone, hw]
    rw [hsame]
    exact .refl _
  · simp only [hdone, Bool.false_eq_true, if_false] at hw ⊢
    obtain ⟨-, hwrite⟩ := handshakeNakWrittenOnce
    obtain ⟨hnak, -⟩ := hwrite
      { s with cmd := .rxPacket, len := cap, role := some .receiver, handshakeDone := false, phase := .rxHsNak } hr rfl
    refine .single ⟨rfl, rfl, rfl, rfl, rfl⟩ ((hnak wr hw).trans ?_)
    simp [State.atRxHeader, hdone]

/-- Settles O35: the handshake NAK if it is due (`rxPacket_reaches_header`), then `runSteps_retries`. -/
theorem rxPacketRetriesUntilAccept : Obligations.RxPacketRetriesUntilAccept := by
  intro s cap bad d hd rest restW hr hp hrole hcap hbad hc hw
  have hw' : if s.handshakeDone then s.chanWrAns = accepts (bad.length + 1) ++ restW
      else s.writeAnswers = .accepted :: (accepts (bad.length + 1) ++ restW) := by
    split at hw
    · next hdone => rw [if_pos hdone, hw, Nat.zero_add]
    · next hdone =>
      rw [if_neg hdone]
      exact writeAnswers_of_cons (by rw [hw, Nat.add_assoc, Nat.add_comm 1]; rfl)
  obtain ⟨t, hexec, hhandshake⟩ := rxPacket_reaches_header hr hp hrole hcap hw'
  have hrun := runSteps_retries (s := s.atRxHeader cap (accepts (bad.length + 1) ++ restW)) hd hr rfl rfl hbad hc rfl
  refine ⟨t, hexec, ?_⟩
  rw [Nat.add_assoc, runSteps_add_of_next hhandshake.runSteps_eq, hrun]
  simp [State.atRxHeader, returned, List.replicate_append_replicate]

/-! ### Rejected frames for ever -/

/-- The environment of R273: at the header read nothing is listed, and a frame that is rejected and an accepted write are repeated
for ever. -/
structure RepeatsBadFrame (d : List Byte) (ck : Byte) (s : State) : Prop where
  resetPin : s.resetPin = false
  phase : s.phase = .rxHeader
  checksum : ck ≠ checksumOf s.config d
  chanRd : s.chanRd = []
  frame : s.again.chanRd = (frameBytes s.packetNumber (complementOf s.packetNumber) d ck).map .byte
  chanWrAns : s.chanWrAns = []
  writes : s.again.chanWrAns = [.accepted]

/-- However many rounds there are, the command goes on through all of them. -/
theorem RepeatsBadFrame.runsThrough {d : List Byte} (hd : d.length = 128) {ck : Byte} (rounds : Nat) {s₀ s : State}
    (h : RepeatsBadFrame d ck s) (hg : GoesOn s₀ s) : ∃ u, RunsThrough (GoesOn s₀) (133 * rounds) s u := by
  induction rounds generalizing s with
  | zero => exact ⟨s, .refl s⟩
  | succ rounds ih =>
    have hread : s.readAnswers = (frameBytes s.packetNumber (complementOf s.packetNumber) d ck).map .byte ++ [] := by
      rw [State.readAnswers, h.chanRd, supply_nil, h.frame, List.append_nil]
    have hwrite : s.writeAnswers = [.accepted] := by rw [State.writeAnswers, h.chanWrAns, supply_nil, h.writes]
    have hround := runsThrough_rejected h.resetPin hg hd h.checksum h.phase hread hwrite
    obtain ⟨u, hrun⟩ := ih (s := s.backAtHeader (.mk d.toArray (by simpa using hd)) (.replicate 128 true) (sum8 d) [] [] 1)
      ⟨h.resetPin, rfl, h.checksum, rfl, h.frame, rfl, h.writes⟩ (hg.of_same_registers rfl rfl rfl rfl rfl)
    exact ⟨u, hround.trans hrun⟩

/-- Settles O36: from the header read on the engine is in the environment of `RepeatsBadFrame`, and more rounds than there are steps
are still to come. -/
theorem rxPacketCanRunForEver : Obligations.RxPacketCanRunForEver := by
  intro s cap d ck hr hp hrole hcap hd hck hrd hframe hwr hwrites
  have hw : if s.handshakeDone then s.chanWrAns = [] else s.writeAnswers = [.accepted] := by
    split
    · exact hwr
    · rw [State.writeAnswers, hwr, supply_nil, hwrites]
  obtain ⟨t, hexec, hhandshake⟩ := rxPacket_reaches_header hr hp hrole hcap hw
  have hloop : RepeatsBadFrame d ck (s.atRxHeader cap []) := ⟨hr, rfl, hck, hrd, hframe, rfl, hwrites⟩
  refine ⟨t, hexec, fun k => ?_⟩
  obtain ⟨u, hrounds⟩ := hloop.runsThrough hd (k + 1) (s₀ := { s with cmd := .rxPacket }) ⟨rfl, rfl, rfl, rfl, rfl⟩
  exact (hhandshake.trans hrounds).visits (by omega)

end Sys2Proof.Machine
end

section
/-! SUPPORT. Which steps report `RetryExhausted` (R143, R169, R203, R223): what the result of each operation can be. -/

namespace Sys2Proof.Machine

/-- If the command has ended with `RetryExhausted`, it is TRANSMIT's, at its tenth TX_PACKET of the chunk (R203). -/
def OuterBoundOnly (s t : State) : Prop :=
  t.busy = false → ∀ scope, t.result = .err (.retryExhausted scope) →
    scope = .outer ∧ s.cmd = .transmit ∧ s.outer = 10 ∧ s.len = 128

theorem outerBoundOnly_of_busy {s t : State} (hb : t.busy = true) : OuterBoundOnly s t := fun hn => by simp [hb] at hn

theorem outerBoundOnly_of_result {s t : State} (h : ∀ scope, t.result ≠ .err (.retryExhausted scope)) : OuterBoundOnly s t :=
  fun _ scope hres => absurd hres (h scope)

theorem outerBoundOnly_endCommand {r : CmdResult} (h : ∀ scope, r ≠ .err (.retryExhausted scope)) (p : Phase) (s : State) :
    OuterBoundOnly s (endCommand r p s) := outerBoundOnly_of_result h

/-- An error of another kind turns into `RetryExhausted(Outer)` at TRANSMIT's bound only (R203). -/
theorem outerBoundOnly_raise {e : CmdError} (h : ∀ scope, e ≠ .retryExhausted scope) (s : State) : OuterBoundOnly s (raise e s) := by
  rcases raise_cases e s with ⟨-, he⟩ | ⟨hr, ho, he⟩ | ⟨-, -, he⟩ <;> rw [he]
  · exact outerBoundOnly_endCommand (fun scope hs => h scope (CmdResult.err.inj hs)) _ s
  · obtain ⟨hc, hl, -⟩ := (outerRetry_iff e s).mp hr
    intro _ scope hres
    cases hres
    exact ⟨rfl, hc, ho, hl⟩
  · exact outerBoundOnly_of_busy (startTx_busy _)

theorem outerBoundOnly_packetReceived (s : State) : OuterBoundOnly s (packetReceived s) := by
  unfold packetReceived
  split
  · exact outerBoundOnly_of_busy rfl
  all_goals exact outerBoundOnly_endCommand (by nofun) _ s

theorem outerBoundOnly_packetSent (s : State) : OuterBoundOnly s (packetSent s) := by
  unfold packetSent
  split
  · exact outerBoundOnly_of_busy rfl
  all_goals exact outerBoundOnly_endCommand (by nofun) _ s

theorem outerBoundOnly_transferEnded (s : State) : OuterBoundOnly s (transferEnded s) := by
  unfold transferEnded
  split <;> exact outerBoundOnly_endCommand (by nofun) _ s

theorem outerBoundOnly_violate (emit : Bool) {p : Phase} (site : Site) {s : State} (h : (s.goto p).busy = true) :
    OuterBoundOnly s (violate emit p site s) := by
  cases emit with
  | false => exact outerBoundOnly_raise (by nofun) s
  | true => exact outerBoundOnly_of_busy h

theorem outerBoundOnly_expectByte (e b : Byte) (site : Site) {m v s : State} (hm : OuterBoundOnly s m) (hv : OuterBoundOnly s v) :
    OuterBoundOnly s (expectByte e b site m v s) := by
  rcases expectByte_cases e b site m v s with ⟨-, he⟩ | ⟨-, -, he⟩ | ⟨-, -, he⟩ <;> rw [he]
  · exact hm
  · exact outerBoundOnly_endCommand (by nofun) _ s
  · exact hv

theorem takeChecksum_busy (b : Byte) (s : State) : (takeChecksum b s).busy = true := by
  unfold takeChecksum State.busy
  split <;> rfl

/-- The reply site is where `RetryExhausted(Inner)` comes from: a NAK on the tenth attempt (R169). -/
theorem takeReply_outerBoundOnly_or (b : Byte) (s : State) :
    OuterBoundOnly s (takeReply b s) ∨
    (b = nakByte ∧ s.attempt = 10 ∧ (takeReply b s).result = .err (.retryExhausted .inner)) := by
  unfold takeReply
  split
  · exact .inl (outerBoundOnly_packetSent { s with packetNumber := nextPacket s.packetNumber })
  split
  · next hb =>
    split
    · next ha => exact .inr ⟨hb, ha, by rw [raise_retryExhausted, endCommand_result]⟩
    · exact .inl (outerBoundOnly_of_busy rfl)
  split
  · exact .inl (outerBoundOnly_raise (by nofun) s)
  · exact .inl (outerBoundOnly_violate _ _ rfl)

theorem takeByte_outerBoundOnly_or {s : State} (hb : s.busy = true) (b : Byte) :
    OuterBoundOnly s (takeByte b s) ∨
    (s.phase = .txReply ∧ b = nakByte ∧ s.attempt = 10 ∧ (takeByte b s).result = .err (.retryExhausted .inner)) := by
  unfold takeByte
  split
  case h_1 =>
    unfold takeHeader
    refine .inl ?_
    split
    · exact outerBoundOnly_of_busy rfl
    split
    · exact outerBoundOnly_of_busy rfl
    split <;> exact outerBoundOnly_raise (by nofun) s
  case h_2 | h_3 => exact .inl (outerBoundOnly_expectByte _ _ _ (outerBoundOnly_of_busy rfl) (outerBoundOnly_of_busy rfl))
  case h_4 i _ => exact .inl (outerBoundOnly_of_busy (takeData_busy i b s))
  case h_5 => exact .inl (outerBoundOnly_of_busy (takeChecksum_busy b s))
  case h_6 | h_8 => exact .inl (outerBoundOnly_expectByte _ _ _ (outerBoundOnly_of_busy rfl) (outerBoundOnly_violate _ _ rfl))
  case h_7 =>
    have hgo : (afterHandshake { s with handshakeDone := true }).busy = true := by
      rw [afterHandshake_eq_startTx rfl]
      exact startTx_busy _
    exact .inl (outerBoundOnly_expectByte _ _ _ (outerBoundOnly_of_busy hgo) (outerBoundOnly_violate _ _ rfl))
  case h_9 => exact .inl (outerBoundOnly_expectByte _ _ _ (outerBoundOnly_transferEnded s) (outerBoundOnly_violate _ _ rfl))
  case h_10 hp => exact (takeReply_outerBoundOnly_or b s).imp_right fun h => ⟨hp, h⟩
  case h_11 => exact .inl (outerBoundOnly_of_busy hb)

theorem outerBoundOnly_readFailed {s : State} (hb : s.busy = true) (k : IoKind) : OuterBoundOnly s (readFailed k s) := by
  unfold readFailed
  split
  · exact outerBoundOnly_of_busy (takeData_busy _ _ s)
  · split
    · exact outerBoundOnly_raise (by nofun) s
    · exact outerBoundOnly_of_busy hb

theorem outerBoundOnly_byteWritten {s : State} (hb : s.busy = true) : OuterBoundOnly s (byteWritten s) := by
  unfold byteWritten
  split
  case h_2 | h_3 | h_7 | h_9 | h_11 | h_13 | h_19 => exact outerBoundOnly_raise (by nofun) s
  case h_4 => exact outerBoundOnly_packetReceived { s with packetNumber := nextPacket s.packetNumber }
  case h_8 => exact outerBoundOnly_transferEnded s
  case h_17 i _ =>
    split
    · next hi => exact outerBoundOnly_of_busy (by rw [nextTxData, dif_pos hi]; rfl)
    · exact outerBoundOnly_of_busy rfl
  case h_20 => exact outerBoundOnly_of_busy hb
  all_goals exact outerBoundOnly_of_busy rfl

theorem outerBoundOnly_writeFailed {s : State} (hb : s.busy = true) (k : IoKind) : OuterBoundOnly s (writeFailed k s) := by
  unfold writeFailed
  split
  · exact outerBoundOnly_raise (by nofun) s
  · exact outerBoundOnly_of_busy hb

theorem chunkLoaded_busy (s : State) : (chunkLoaded s).busy = true := by
  unfold chunkLoaded
  split <;> exact startTx_busy _

theorem takeSourceByte_busy {s : State} (hb : s.busy = true) (b : Byte) : (takeSourceByte b s).busy = true := by
  unfold takeSourceByte
  dsimp only
  split
  · exact hb
  · exact chunkLoaded_busy _

/-- A step inside a command ends it with `RetryExhausted` at one of the sender's two bounds only (R169, R203). -/
theorem step_outerBoundOnly_or {s t : State} (hr : s.resetPin = false) (hstep : step s = .next t) (hb : s.busy = true) :
    OuterBoundOnly s t ∨
    (s.phase = .txReply ∧ s.attempt = 10 ∧ (∃ rest, s.readAnswers = .byte nakByte :: rest) ∧
      t.result = .err (.retryExhausted .inner)) := by
  have hport : s.phase.port ≠ none := fun hp => by simp [not_busy_of_port hp] at hb
  rcases step_cases hstep with ⟨hr', -⟩ | ⟨-, hp, -⟩ | ⟨-, hp, -⟩ | ⟨-, -, b, rest, ha, rfl⟩ | ⟨-, -, k, rest, -, rfl⟩ |
    ⟨-, -, rest, -, rfl⟩ | ⟨-, -, k, wentOut, rest, -, rfl⟩ | ⟨-, -, -, rfl⟩ | ⟨-, -, b, rest, -, rfl⟩ | ⟨-, -, k, rest, -, rfl⟩ |
    ⟨-, -, rest, -, rfl⟩ | ⟨-, -, k, rest, -, rfl⟩
  · simp [hr] at hr'
  · exact absurd hp hport
  · exact absurd hp hport
  · rcases takeByte_outerBoundOnly_or (s := { s with chanRd := rest }) hb b with h | ⟨hp, rfl, hatt, hres⟩
    · exact .inl h
    · exact .inr ⟨hp, hatt, ⟨rest, ha⟩, hres⟩
  all_goals left
  · exact outerBoundOnly_readFailed (s := { s with chanRd := rest }) hb k
  · exact outerBoundOnly_byteWritten (s := { s with chanWrAns := rest, chanWr := _ }) hb
  · exact outerBoundOnly_writeFailed (s := { s with chanWrAns := rest, chanWr := _ }) hb k
  · exact outerBoundOnly_of_busy (chunkLoaded_busy s)
  · exact outerBoundOnly_of_busy (takeSourceByte_busy (s := { s with src := rest }) hb b)
  · exact outerBoundOnly_raise (s := { s with src := rest }) (by nofun)
  · exact outerBoundOnly_of_busy (startRx_busy _)
  · exact outerBoundOnly_raise (s := { s with sinkAns := rest }) (by nofun)

/-- Settles O58: the two bounds of `step_outerBoundOnly_or` are the sender's, and by the invariant a receiver is at neither. -/
theorem retryExhaustionIsTheSendersOnly : Obligations.RetryExhaustionIsTheSendersOnly := by
  intro s t hinv hr hstep hb ht
  rcases step_outerBoundOnly_or hr hstep hb with h | ⟨hp, hatt, hnak, hres⟩
  · refine ⟨fun ho scope hres => ?_, fun hres => ?_, fun hres => ?_⟩
    · obtain ⟨-, hc, -⟩ := h ht scope hres
      obtain ⟨-, -, hrx, -⟩ := hinv.readyToReceive ho
      simp [hc] at hrx
    · obtain ⟨hs, -⟩ := h ht .inner hres
      cases hs
    · obtain ⟨-, houter⟩ := h ht .outer hres
      exact houter
  · refine ⟨fun ho => ?_, fun _ => ⟨hp, hatt, hnak⟩, fun hres' => ?_⟩
    · simp [hp, Phase.owner] at ho
    · simp [hres] at hres'

end Sys2Proof.Machine
end

section
/-! SUPPORT. The sender's command and its symbols (R160 to R165, R173 g, R174): the admission of TX_PACKET, where it goes first, and a
symbol that nothing reads. -/

namespace Sys2Proof.Machine

/-- Settles O18: at a phase that reads no channel byte the symbol's one byte stays in the channel (`takeUnit_of_wait`). -/
theorem symbolWaitsWhileNotRead : Obligations.SymbolWaitsWhileNotRead := by
  intro s hp
  have hwait : s.atChanRead = false := by simpa [State.atChanRead] using hp
  have stays (b : Byte) : takeUnit [b] s = { s with chanRd := .byte b :: s.chanRd } := takeUnit_of_wait [b] hwait
  exact ⟨congrArg _ (stays 0x01), congrArg _ (stays 0x04), congrArg _ (stays 0x06), congrArg _ (stays 0x15),
    congrArg _ (stays 0x18)⟩

/-! ### TX_PACKET as it is given -/

theorem exec_txPacket_of_refused {s : State} {len : Nat} {r : Refusal} (h : refusalTx len s = some r) :
    exec (.txPacket len) s = .refused r := by
  simp only [exec, execTxPacket, h]

/-- What refuses a sender's packet command refuses TX_PACKET, whatever its length (R174). -/
theorem refusalTx_of_refusalPacket {s : State} {r : Refusal} (h : refusalPacket .sender s = some r) (len : Nat) :
    refusalTx len s = some r := by
  simp only [refusalTx, h]

/-- An idle engine that serves no receiver may be given a sender's packet command (R174, R245). -/
theorem refusalPacket_sender_eq_none {s : State} (hp : s.phase = .idle) (hrole : s.role ≠ some .receiver) :
    refusalPacket .sender s = none := by
  refine refusalPacket_eq_none.mpr ⟨hp, ?_⟩
  cases hr : s.role with
  | none => exact .inl rfl
  | some r =>
    cases r with
    | receiver => exact absurd hr hrole
    | sender => exact .inr rfl

/-- A full packet with an entry of `x` that was never written is refused (R174, R23). -/
theorem refusalTx_of_unwritten {s : State} (hp : s.phase = .idle) (hrole : s.role ≠ some .receiver)
    (hx : ∃ i, s.xWritten.get i = false) : refusalTx 128 s = some .bufferUnwritten := by
  have hw : s.bufferWritten = false := by
    obtain ⟨i, hi⟩ := hx
    refine Bool.eq_false_iff.mpr fun hw => ?_
    simp [(bufferWritten_iff s).mp hw i] at hi
  simp [refusalTx, refusalPacket_sender_eq_none hp hrole, hw]

/-- TX_PACKET as it has been accepted (R174, R245; log 16). -/
def State.givenTxPacket (s : State) (len : Nat) : State := { s with cmd := .txPacket, len := len, role := some .sender }

/-- Any other TX_PACKET is admitted on an idle engine that serves no receiver; the length check comes first (R161, R174). -/
theorem exec_txPacket_of_admitted {s : State} {len : Nat} (hp : s.phase = .idle) (hrole : s.role ≠ some .receiver)
    (hx : len = 128 → ∀ i, s.xWritten.get i = true) :
    exec (.txPacket len) s = .next
      (if len ≠ 0 ∧ len ≠ 128 then failedWith (.contractViolation .txBadLength) (s.givenTxPacket len)
       else startTx (s.givenTxPacket len)) := by
  have hadmit : refusalTx len s = none := by
    obtain ⟨hidle, hsender⟩ := refusalPacket_eq_none.mp (refusalPacket_sender_eq_none hp hrole)
    exact refusalTx_eq_none.mpr ⟨hidle, hsender, fun hl => (bufferWritten_iff s).mpr (hx hl)⟩
  simp only [exec, execTxPacket, hadmit, raise_contractViolation]
  simp [txBadLength, failedWith, endCommand, State.givenTxPacket]

/-- Settles O29: the refusals in the order of `refusalTx`, and the length check of `exec_txPacket_of_admitted`. -/
theorem txPacketAdmissionAndLengthCheck : Obligations.TxPacketAdmissionAndLengthCheck := by
  intro s len
  refine ⟨fun hb => exec_command_of_busy hb rfl, fun hp => ?_, fun hp hrole => ?_, fun hp hrole hl hx => ?_,
    fun hp hrole h0 h128 => ?_⟩
  · exact exec_txPacket_of_refused (refusalTx_of_refusalPacket (refusalPacket_of_terminated hp _) len)
  · exact exec_txPacket_of_refused (refusalTx_of_refusalPacket (refusalPacket_of_other_role hp hrole nofun) len)
  · subst hl
    exact exec_txPacket_of_refused (refusalTx_of_unwritten hp hrole hx)
  · rw [exec_txPacket_of_admitted hp hrole fun hl => absurd hl h128, if_pos ⟨h0, h128⟩]
    rfl

/-- Where TX_PACKET goes first, field by field (R160, R162, R163, R165). -/
theorem startTx_eq (s : State) :
    startTx s =
      if s.handshakeDone = false then { s with phase := .txHandshake }
      else if s.len = 0 then { s with phase := .txEot1Send }
      else { s with attempt := 1, phase := .txSoh } := by
  rcases startTx_cases s with ⟨hd, he⟩ | ⟨hd, hl, he⟩ | ⟨hd, hl, he⟩
  · rw [he, if_pos hd, State.goto]
  · rw [he, if_neg (ne_false_of_eq_true hd), if_pos hl, State.goto]
  · rw [he, if_neg (ne_false_of_eq_true hd), if_neg hl]

/-- A TX_PACKET of one of the two lengths passes its check (R161). -/
theorem exec_txPacket_starts {s : State} {len : Nat} (hp : s.phase = .idle) (hrole : s.role ≠ some .receiver)
    (hlen : len = 0 ∨ (len = 128 ∧ ∀ i, s.xWritten.get i = true)) :
    exec (.txPacket len) s = .next (startTx (s.givenTxPacket len)) := by
  have hx : len = 128 → ∀ i, s.xWritten.get i = true := fun hl => (hlen.resolve_left (by omega)).2
  rw [exec_txPacket_of_admitted hp hrole hx, if_neg (by omega)]

/-- Settles O30: an admitted TX_PACKET starts (`exec_txPacket_starts`), and `startTx_eq` says where. -/
theorem txPacketStarts : Obligations.TxPacketStarts := by
  intro s len hp hrole hlen
  rw [exec_txPacket_starts hp hrole hlen, startTx_eq]
  rfl

end Sys2Proof.Machine
end

section
/-! SUPPORT. TX_PACKET from its handshake to its end (R160 to R171): the 132 writes of one transmission, the frame sent again for each
NAK, and the EOT exchange of the empty-packet call. -/

namespace Sys2Proof.Machine

/-! ### Channel writes in a row -/

/-- The bytes `bs` have been written since `s`, `wr` are the answers that are left, and the engine is at `q`. -/
def State.wrote (s : State) (bs : List Byte) (wr : List WriteAnswer) (q : Phase) : State :=
  { s with phase := q, chanWrAns := wr, chanWr := s.chanWr ++ bs }

/-- The sum of `x` has been left in `acc` (log 10). -/
def State.summed (s : State) : State := { s with acc := sum8 s.x.toList }

theorem wrote_nil {s : State} {p : Phase} {wr : List WriteAnswer} (hp : s.phase = p) (hw : s.chanWrAns = wr) :
    s.wrote [] wr p = s := by
  subst hp hw
  rw [State.wrote, List.append_nil]

/-- The bytes of `x` that are still to be written at data byte `i`. -/
theorem drop_toList_eq_cons (x : Buffer) (i : Fin dataLen) : x.toList.drop i = x.get i :: x.toList.drop (i + 1) := by
  rw [List.drop_eq_getElem_cons (by simp), Vector.getElem_toList, Vector.get_eq_getElem]

section Writes

variable {s : State} (hr : s.resetPin = false) (bs : List Byte) (wr : List WriteAnswer)

/-- A data byte that is not the last is followed by the next one (R160, R166). -/
theorem byteWritten_txData {i : Fin dataLen} (hi : i.val + 1 < 128) :
    byteWritten (s.wrote bs wr (.txData i)) = s.wrote bs wr (.txData ⟨i.val + 1, hi⟩) := by
  rw [byteWritten, State.wrote]
  simp only [nextTxData, dif_pos hi, if_pos hi]
  rfl

/-- With the last data byte the sum of `x` is left in `acc` (R166; log 10). -/
theorem byteWritten_txData_last {i : Fin dataLen} (hi : i.val = 127) :
    byteWritten (s.wrote bs wr (.txData i)) = s.summed.wrote bs wr .txCksum := by
  rw [byteWritten, State.wrote]
  simp only [hi]
  rfl

include hr

/-- An accepted write appends the byte its site offers. -/
theorem step_wrote {p : Phase} {b : Byte} (hport : p.port = some .chanWr) (hb : (s.goto p).offeredByte = some b) :
    step (s.wrote bs (.accepted :: wr) p) = .next (byteWritten (s.wrote (bs ++ [b]) wr p)) := by
  rw [step_write_accepted (s := s.wrote bs (.accepted :: wr) p) hr rfl hport hb (writeAnswers_of_cons rfl)]
  simp only [State.wrote, List.append_assoc]

/-! ### One transmission of the frame -/

/-- From data byte `i` on, the rest of `x` is written (R166). -/
theorem runSteps_txData (m : Nat) {i : Fin dataLen} (him : i.val + m = 127) :
    runSteps (m + 1) (s.wrote bs (accepts (m + 1) ++ wr) (.txData i)) =
      .next (s.summed.wrote (bs ++ s.x.toList.drop i) wr .txCksum) := by
  induction m generalizing i bs with
  | zero =>
    have hlast : s.x.toList.drop (i + 1) = [] := List.drop_eq_nil_of_le (by simp; omega)
    rw [drop_toList_eq_cons, hlast, ← byteWritten_txData_last _ _ him]
    exact runSteps_succ_of_next (step_wrote hr bs wr rfl rfl)
  | succ m ih =>
    have hi : i.val + 1 < 128 := by omega
    have hstep := step_wrote hr bs (accepts (m + 1) ++ wr) (p := .txData i) rfl rfl
    rw [byteWritten_txData _ _ hi] at hstep
    rw [drop_toList_eq_cons, List.append_cons]
    exact (runSteps_succ_of_next hstep).trans (ih _ (i := ⟨i.val + 1, hi⟩) (by dsimp only; omega))

/-- The 132 writes of one transmission: the frame's bytes in their order (R115, R166). -/
theorem runSteps_transmission :
    runSteps 132 (s.wrote [] (accepts 132 ++ wr) .txSoh) =
      .next (s.summed.wrote (frameOf s.config s.packetNumber s.x.toList) wr .txReply) := by
  have hdata : accepts 129 ++ wr = accepts 128 ++ .accepted :: wr := by
    rw [accepts, List.replicate_succ', List.append_assoc]
    rfl
  calc runSteps 132 (s.wrote [] (accepts 132 ++ wr) .txSoh)
    _ = runSteps 131 (s.wrote [0x01] (accepts 131 ++ wr) .txSeq) :=
      runSteps_succ_of_next (step_wrote hr _ _ rfl rfl)
    _ = runSteps 130 (s.wrote [0x01, s.packetNumber] (accepts 130 ++ wr) .txCmp) :=
      runSteps_succ_of_next (step_wrote hr _ _ rfl rfl)
    _ = runSteps 129 (s.wrote [0x01, s.packetNumber, complementOf s.packetNumber] (accepts 129 ++ wr) (.txData 0)) :=
      runSteps_succ_of_next (step_wrote hr _ _ rfl rfl)
    _ = runSteps 1 (s.summed.wrote
          (0x01 :: s.packetNumber :: complementOf s.packetNumber :: s.x.toList) (.accepted :: wr) .txCksum) := by
      rw [hdata]
      exact runSteps_add_of_next (k := 1) (runSteps_txData hr _ _ 127 (i := 0) rfl)
    _ = .next (s.summed.wrote (frameOf s.config s.packetNumber s.x.toList) wr .txReply) :=
      runSteps_succ_of_next (step_wrote (s := s.summed) hr _ _ rfl rfl)

end Writes

/-- Settles O32: the run of `runSteps_transmission`. -/
theorem transmissionWritesTheFrame : Obligations.TransmissionWritesTheFrame := by
  intro s rest hr hp hw
  have hrun := runSteps_transmission hr rest
  rwa [wrote_nil hp hw] at hrun

/-! ### The frame again for each NAK -/

/-- The reply is due after the frame has been sent and then sent again `k` times, with the answers that are left (R166 to R169). -/
def State.awaitsReply (s : State) (k : Nat) (rd : List ReadAnswer) (wr : List WriteAnswer) : State :=
  { s with
    phase := .txReply
    attempt := s.attempt + k
    acc := sum8 s.x.toList
    chanRd := rd
    chanWrAns := wr
    chanWr := s.chanWr ++ (List.replicate (k + 1) (frameOf s.config s.packetNumber s.x.toList)).flatten }

/-- The reply is read, and what it does to the command does not depend on what stands behind it in the channel (R89). -/
theorem step_awaitsReply {s : State} (hr : s.resetPin = false) (k : Nat) (b : Byte) (rd : List ReadAnswer)
    (wr : List WriteAnswer) :
    step (s.awaitsReply k (.byte b :: rd) wr) = .next (takeReply b (s.awaitsReply k rd wr)) := by
  rw [step_takes_byte (s := s.awaitsReply k (.byte b :: rd) wr) hr rfl rfl (readAnswers_of_cons rfl)]
  exact congrArg _ (takeByte_txReply b rfl)

/-- Short of the tenth attempt a NAK sends the frame again (R169). -/
theorem takeReply_nak {s : State} (ha : s.attempt ≠ 10) : takeReply 0x15 s = sendFrame s := by
  rw [takeReply_eq, if_neg (by decide), if_pos rfl, if_neg ha, sendFrame]

/-- On the tenth it ends the command (R169, R223). -/
theorem takeReply_nak_of_tenth {s : State} (ha : s.attempt = 10) :
    takeReply 0x15 s = failedWith (.retryExhausted .inner) s := by
  rw [takeReply_eq, if_neg (by decide), if_pos rfl, if_pos ha]

/-- A NAK short of the tenth attempt, and the transmission that answers it (R166, R169). -/
theorem runSteps_resend {s : State} (hr : s.resetPin = false) {k : Nat} (hk : s.attempt + k ≠ 10) (rd : List ReadAnswer)
    (wr : List WriteAnswer) :
    runSteps 133 (s.awaitsReply k (.byte 0x15 :: rd) (accepts 132 ++ wr)) = .next (s.awaitsReply (k + 1) rd wr) := by
  have hnak := step_awaitsReply hr k 0x15 rd (accepts 132 ++ wr)
  rw [takeReply_nak hk] at hnak
  rw [runSteps_succ_of_next hnak, transmissionWritesTheFrame (sendFrame (s.awaitsReply k rd (accepts 132 ++ wr))) wr hr rfl rfl]
  simp [State.awaitsReply, List.replicate_succ' (n := k + 1), Nat.add_assoc]

/-- The first transmission, and one more for each of `k` NAKs (R165, R166, R169). -/
theorem runSteps_resends {s : State} (hr : s.resetPin = false) (hp : s.phase = .txSoh) (k : Nat) (hk : s.attempt + k ≤ 10)
    {rd : List ReadAnswer} (hc : s.chanRd = List.replicate k (.byte 0x15) ++ rd)
    {wr : List WriteAnswer} (hw : s.chanWrAns = accepts (132 * (k + 1)) ++ wr) :
    runSteps (132 + 133 * k) s = .next (s.awaitsReply k rd wr) := by
  induction k generalizing rd wr with
  | zero =>
    rw [transmissionWritesTheFrame s wr hr hp hw]
    simp [State.awaitsReply, hc]
  | succ k ih =>
    have hc' : s.chanRd = List.replicate k (.byte 0x15) ++ .byte 0x15 :: rd := by
      rw [hc, List.replicate_succ', List.append_assoc]
      rfl
    have hw' : s.chanWrAns = accepts (132 * (k + 1)) ++ (accepts 132 ++ wr) := by
      rw [hw, ← List.append_assoc, accepts, accepts, accepts, List.replicate_append_replicate, ← Nat.mul_succ]
    rw [Nat.mul_succ, ← Nat.add_assoc, runSteps_add_of_next (ih (by omega) hc' hw')]
    exact runSteps_resend hr (by omega) rd wr

/-- The frame is sent, and sent again for each of `k` NAKs; then the reply `b` is read (R165 to R169). -/
theorem runSteps_takes_reply {s : State} (hr : s.resetPin = false) (hp : s.phase = .txSoh) {k : Nat} (hk : s.attempt + k ≤ 10)
    {b : Byte} {rd : List ReadAnswer} (hc : s.chanRd = List.replicate k (.byte 0x15) ++ .byte b :: rd)
    {wr : List WriteAnswer} (hw : s.chanWrAns = accepts (132 * (k + 1)) ++ wr) :
    runSteps (133 * (k + 1)) s = .next (takeReply b (s.awaitsReply k rd wr)) := by
  have hcount : 133 * (k + 1) = (132 + 133 * k) + 1 := by omega
  rw [hcount, runSteps_add_of_next (runSteps_resends hr hp k hk hc hw)]
  exact runSteps_succ_of_next (step_awaitsReply hr k b rd wr)

/-! ### The handshake and the EOT exchange -/

/-- Where a packet command goes first does not depend on where the engine was (R160). -/
theorem startTx_goto (p : Phase) (s : State) : startTx (s.goto p) = startTx s := by
  rw [startTx_eq, startTx_eq]
  rfl

/-- The handshake is behind the command, and `rd` are the answers that are left in `CHAN_RD` (R28, R162). -/
def State.handshaken (s : State) (rd : List ReadAnswer) : State := { s with handshakeDone := true, chanRd := rd }

/-- A sender's packet command passes its handshake by the NAK, if it is due (R160, R162). -/
theorem startTx_passes_handshake {s : State} (hr : s.resetPin = false) {rd : List ReadAnswer}
    (hc : s.chanRd = List.replicate (if s.handshakeDone then 0 else 1) (.byte 0x15) ++ rd) :
    runSteps (if s.handshakeDone then 0 else 1) (startTx s) = .next (startTx (s.handshaken rd)) := by
  by_cases hdone : s.handshakeDone = true
  · simp only [hdone, if_true, List.replicate_zero, List.nil_append] at hc ⊢
    simp only [runSteps_zero, State.handshaken, ← hdone, ← hc]
  · have hstart : startTx s = s.goto .txHandshake := by rw [startTx, if_neg hdone]
    have hnak : takeByte 0x15 ((s.goto .txHandshake).withChanRd rd) = startTx ((s.handshaken rd).goto .txHandshake) :=
      (takeByte_txHandshake _ rfl).trans (expectByte_same ..)
    simp only [hdone, Bool.false_eq_true, if_false] at hc ⊢
    rw [hstart, ← startTx_goto .txHandshake, ← hnak]
    exact runSteps_succ_of_next (step_takes_byte (s := s.goto .txHandshake) hr rfl rfl (readAnswers_of_cons hc))

/-- The byte at the head of `CHAN_RD` is read at the site `q`. -/
theorem step_reads_after_wrote {s : State} (hr : s.resetPin = false) (bs : List Byte) (wr : List WriteAnswer) {q : Phase}
    (hport : q.port = some .chanRd) (b : Byte) (rd : List ReadAnswer) :
    step ((s.withChanRd (.byte b :: rd)).wrote bs wr q) = .next (takeByte b ((s.withChanRd rd).wrote bs wr q)) :=
  step_takes_byte (s := (s.withChanRd (.byte b :: rd)).wrote bs wr q) hr rfl hport (readAnswers_of_cons rfl)

/-- The end of a transfer as a sender: EOT, NAK, EOT, ACK (R163, R164). -/
theorem runSteps_eotExchange {s : State} (hr : s.resetPin = false) (hp : s.phase = .txEot1Send) {rd : List ReadAnswer}
    (hc : s.chanRd = .byte 0x15 :: .byte 0x06 :: rd) {wr : List WriteAnswer} (hw : s.chanWrAns = accepts 2 ++ wr) :
    runSteps 4 s = .next (transferEnded ((s.withChanRd rd).wrote [0x04, 0x04] wr .txEot2)) := by
  have hs : (s.withChanRd (.byte 0x15 :: .byte 0x06 :: rd)).wrote [] (accepts 2 ++ wr) .txEot1Send = s := by
    rw [← hc]
    exact wrote_nil hp hw
  have hnak : takeByte 0x15 ((s.withChanRd (.byte 0x06 :: rd)).wrote [0x04] (accepts 1 ++ wr) .txEot1) =
      (s.withChanRd (.byte 0x06 :: rd)).wrote [0x04] (accepts 1 ++ wr) .txEot2Send :=
    (takeByte_txEot1 _ rfl).trans (expectByte_same ..)
  have hack : takeByte 0x06 ((s.withChanRd rd).wrote [0x04, 0x04] wr .txEot2) =
      transferEnded ((s.withChanRd rd).wrote [0x04, 0x04] wr .txEot2) :=
    (takeByte_txEot2 _ rfl).trans (expectByte_same ..)
  calc runSteps 4 s
    _ = runSteps 4 ((s.withChanRd (.byte 0x15 :: .byte 0x06 :: rd)).wrote [] (accepts 2 ++ wr) .txEot1Send) := by rw [hs]
    _ = runSteps 3 ((s.withChanRd (.byte 0x15 :: .byte 0x06 :: rd)).wrote [0x04] (accepts 1 ++ wr) .txEot1) :=
      runSteps_succ_of_next (step_wrote (s := s.withChanRd (.byte 0x15 :: .byte 0x06 :: rd)) hr _ _ rfl rfl)
    _ = runSteps 2 ((s.withChanRd (.byte 0x06 :: rd)).wrote [0x04] (accepts 1 ++ wr) .txEot2Send) :=
      hnak ▸ runSteps_succ_of_next (step_reads_after_wrote hr _ _ rfl _ _)
    _ = runSteps 1 ((s.withChanRd (.byte 0x06 :: rd)).wrote [0x04, 0x04] wr .txEot2) :=
      runSteps_succ_of_next (step_wrote (s := s.withChanRd (.byte 0x06 :: rd)) hr _ _ rfl rfl)
    _ = .next (transferEnded ((s.withChanRd rd).wrote [0x04, 0x04] wr .txEot2)) :=
      hack ▸ runSteps_succ_of_next (step_reads_after_wrote hr _ _ rfl _ _)

/-! ### TX_PACKET from the host's write on -/

/-- TX_PACKET at its first transmission, with the handshake behind it (R162, R165). -/
def State.atFirstFrame (s : State) : State :=
  { s.givenTxPacket 128 with handshakeDone := true, attempt := 1, phase := .txSoh }

theorem startTx_givenTxPacket_128 (s : State) (rd : List ReadAnswer) :
    startTx ((s.givenTxPacket 128).handshaken rd) = s.atFirstFrame.withChanRd rd := rfl

theorem startTx_givenTxPacket_0 (s : State) (rd : List ReadAnswer) :
    startTx ((s.givenTxPacket 0).handshaken rd) = ((s.givenTxPacket 0).handshaken rd).goto .txEot1Send := rfl

section TxPacket

variable {s : State} (hr : s.resetPin = false) (hp : s.phase = .idle) (hrole : s.role ≠ some .receiver) {rd : List ReadAnswer}
include hr hp hrole

/-- TX_PACKET passes its handshake, and its other steps follow from there (R160 to R162). -/
theorem txPacket_passes_handshake {len : Nat} (hlen : len = 0 ∨ (len = 128 ∧ ∀ i, s.xWritten.get i = true))
    (hc : s.chanRd = List.replicate (if s.handshakeDone then 0 else 1) (.byte 0x15) ++ rd) :
    ∃ t, exec (.txPacket len) s = .next t ∧ ∀ j,
      runSteps ((if s.handshakeDone then 0 else 1) + j) t = runSteps j (startTx ((s.givenTxPacket len).handshaken rd)) :=
  ⟨_, exec_txPacket_starts hp hrole hlen, fun _ => runSteps_add_of_next (startTx_passes_handshake (s := s.givenTxPacket len) hr hc)⟩

/-- TX_PACKET with a full packet sends it and, after `k` NAKs, reads the reply `b` to its transmission `k + 1` (R165 to R169). -/
theorem txPacket_takes_reply (hx : ∀ i, s.xWritten.get i = true) {k : Nat} (hk : k < 10) {b : Byte}
    (hc : s.chanRd = List.replicate ((if s.handshakeDone then 0 else 1) + k) (.byte 0x15) ++ .byte b :: rd)
    {wr : List WriteAnswer} (hw : s.chanWrAns = accepts (132 * (k + 1)) ++ wr) :
    ∃ t, exec (.txPacket 128) s = .next t ∧
      runSteps ((if s.handshakeDone then 0 else 1) + 133 * (k + 1)) t = .next
        (takeReply b (s.atFirstFrame.awaitsReply k rd wr)) := by
  rw [← List.replicate_append_replicate, List.append_assoc] at hc
  obtain ⟨t, hexec, hrun⟩ := txPacket_passes_handshake hr hp hrole (.inr ⟨rfl, hx⟩) hc
  refine ⟨t, hexec, (hrun _).trans ?_⟩
  rw [startTx_givenTxPacket_128]
  exact runSteps_takes_reply (s := s.atFirstFrame.withChanRd _) hr rfl (show 1 + k ≤ 10 by omega) rfl hw

end TxPacket

/-- Settles O37: the reply to transmission `k + 1` is the ACK, which ends the command. -/
theorem txPacketResendsUntilAck : Obligations.TxPacketResendsUntilAck := by
  intro s k rest restW hr hp hrole hx hk hc hw
  obtain ⟨t, hexec, hrun⟩ := txPacket_takes_reply hr hp hrole hx hk hc hw
  refine ⟨t, hexec, hrun.trans ?_⟩
  rw [takeReply_eq, if_pos rfl, packetSent_of_sender (.inl rfl), if_neg nofun]
  simp [State.awaitsReply, State.atFirstFrame, State.givenTxPacket, returned, Nat.add_comm]

/-- Settles O38: the reply to the tenth transmission is a NAK, which ends the command. -/
theorem tenNaksExhaustTheRetries : Obligations.TenNaksExhaustTheRetries := by
  intro s rest restW hr hp hrole hx hc hw
  rw [← Nat.add_assoc _ 9 1, List.replicate_succ', List.append_assoc] at hc
  obtain ⟨t, hexec, hrun⟩ := txPacket_takes_reply hr hp hrole hx (k := 9) (by decide) hc hw
  exact ⟨t, hexec, hrun.trans (congrArg _ (takeReply_nak_of_tenth rfl))⟩

/-- Settles O39: the handshake if it is due, and the EOT exchange. -/
theorem emptyPacketCallTerminates : Obligations.EmptyPacketCallTerminates := by
  intro s rest restW hr hp hrole hc hw
  obtain ⟨t, hexec, hrun⟩ := txPacket_passes_handshake hr hp hrole (.inl rfl) hc
  refine ⟨t, hexec, (hrun 4).trans ?_⟩
  rw [startTx_givenTxPacket_0, runSteps_eotExchange (s := ((s.givenTxPacket 0).handshaken _).goto .txEot1Send) hr rfl rfl hw,
    transferEnded_of_sender (.inl rfl), if_neg nofun]
  simp only [returned, State.wrote, State.withChanRd, State.goto, State.handshaken, State.givenTxPacket]

end Sys2Proof.Machine
end

section
/-! SUPPORT. How the driver commands begin (R190, R195, R200), what RECEIVE counts (R56, R195, R196), and TRANSMIT's outer retry
(R203). -/

namespace Sys2Proof.Machine

/-- Whenever the engine is not busy RECEIVE begins with a fresh one, and its first port operation is the handshake NAK (R195). -/
theorem exec_receive_of_not_busy {s : State} (hb : s.busy = false) :
    exec .receive s = .next
      { freshEngine s with cmd := .receive, role := some .receiver, len := 128, total := 0, phase := .rxHsNak } := by
  simp only [exec, execReceive, refusalNew_of_not_busy hb]
  rfl

/-- The same for TRANSMIT, whose first port operation is the source read (R200). -/
theorem exec_transmit_of_not_busy {s : State} (hb : s.busy = false) :
    exec .transmit s = .next
      { freshEngine s with cmd := .transmit, role := some .sender, total := 0, n := 0, phase := .trSrc } := by
  simp only [exec, execTransmit, refusalNew_of_not_busy hb]

/-- Settles O27: NEW is admitted, and `freshEngine` is the reset state with the streams kept. -/
theorem newMakesAFreshEngine : Obligations.NewMakesAFreshEngine := by
  intro s hb
  simp only [exec, execNew, refusalNew_of_not_busy hb]
  rfl

/-- Settles O31: both drivers begin with `freshEngine`, and what they set after it is their own. -/
theorem driversBeginWithNew : Obligations.DriversBeginWithNew :=
  fun _ hb => ⟨exec_receive_of_not_busy hb, exec_transmit_of_not_busy hb⟩

/-- The packet is in the sink, and the next RX_PACKET begins at its header read (R56, R195, R196). -/
theorem sinkWritten_of_handshakeDone {s : State} (hd : s.handshakeDone = true) :
    sinkWritten s = { s with sink := s.sink ++ s.x.toList, total := s.total + 128, len := 128, phase := .rxHeader } := by
  simp only [sinkWritten, startRx, hd, if_true]
  rfl

/-- Settles O42: the step at the sink's port, and `sinkWritten_of_handshakeDone`. -/
theorem sinkTakesThePacket : Obligations.SinkTakesThePacket := by
  intro s rest hr hp hd ha
  rw [step_at_sink hr (by rw [hp]; rfl), sinkStep, ha]
  exact congrArg _ (sinkWritten_of_handshakeDone (s := { s with sinkAns := rest }) hd)

/-! ### What RECEIVE counts -/

/-- The command and its count are the same (R31, R196). -/
def SameCount (s t : State) : Prop := t.cmd = s.cmd ∧ t.total = s.total

theorem startRx_sameCount (s : State) : SameCount s (startRx s) := by
  rcases startRx_cases s with ⟨-, h⟩ | ⟨-, h⟩ <;> rw [h] <;> exact ⟨rfl, rfl⟩

theorem startTx_sameCount (s : State) : SameCount s (startTx s) := by
  rcases startTx_cases s with ⟨-, h⟩ | ⟨-, -, h⟩ | ⟨-, -, h⟩ <;> rw [h] <;> exact ⟨rfl, rfl⟩

theorem raise_sameCount (e : CmdError) (s : State) : SameCount s (raise e s) := by
  rcases raise_cases e s with ⟨-, h⟩ | ⟨-, -, h⟩ | ⟨-, -, h⟩ <;> rw [h]
  · exact ⟨rfl, rfl⟩
  · exact ⟨rfl, rfl⟩
  · exact startTx_sameCount { s with outer := s.outer + 1 }

theorem packetReceived_sameCount (s : State) : SameCount s (packetReceived s) := by
  unfold packetReceived
  split <;> exact ⟨rfl, rfl⟩

/-- Of the commands only TRANSMIT counts where a packet has been sent (R202). -/
theorem packetSent_sameCount {s : State} (hc : s.cmd ≠ .transmit) : SameCount s (packetSent s) := by
  unfold packetSent
  split
  case h_1 hc' => exact absurd hc' hc
  all_goals exact ⟨rfl, rfl⟩

theorem transferEnded_sameCount (s : State) : SameCount s (transferEnded s) := by
  unfold transferEnded
  split <;> exact ⟨rfl, rfl⟩

theorem chunkLoaded_sameCount (s : State) : SameCount s (chunkLoaded s) := by
  unfold chunkLoaded
  split
  · exact startTx_sameCount { s.padX with len := 0 }
  · exact startTx_sameCount { s.padX with outer := 1, len := dataLen }

theorem takeSourceByte_sameCount (b : Byte) (s : State) : SameCount s (takeSourceByte b s) := by
  unfold takeSourceByte
  dsimp only
  split
  · exact ⟨rfl, rfl⟩
  · exact chunkLoaded_sameCount { s with
      x := s.x.setIfInBounds s.n b
      xWritten := s.xWritten.setIfInBounds s.n true
      n := s.n + 1
      pos := s.pos + 1 }

theorem violate_sameCount (emit : Bool) (p : Phase) (site : Site) (s : State) : SameCount s (violate emit p site s) := by
  cases emit with
  | false => exact raise_sameCount _ s
  | true => exact ⟨rfl, rfl⟩

theorem expectByte_sameCount {s m v : State} (e b : Byte) (site : Site) (hm : SameCount s m) (hv : SameCount s v) :
    SameCount s (expectByte e b site m v s) := by
  rcases expectByte_cases e b site m v s with ⟨-, h⟩ | ⟨-, -, h⟩ | ⟨-, -, h⟩ <;> rw [h]
  · exact hm
  · exact ⟨rfl, rfl⟩
  · exact hv

theorem takeHeader_sameCount (b : Byte) (s : State) : SameCount s (takeHeader b s) := by
  unfold takeHeader
  split
  · exact ⟨rfl, rfl⟩
  split
  · exact ⟨rfl, rfl⟩
  split <;> exact raise_sameCount _ s

theorem takeReply_sameCount {s : State} (hc : s.cmd ≠ .transmit) (b : Byte) : SameCount s (takeReply b s) := by
  unfold takeReply
  split
  · exact packetSent_sameCount (s := { s with packetNumber := nextPacket s.packetNumber }) hc
  split
  · split
    · exact raise_sameCount _ s
    · exact ⟨rfl, rfl⟩
  split
  · exact raise_sameCount _ s
  · exact violate_sameCount _ _ _ s

theorem takeByte_sameCount {s : State} (hc : s.cmd ≠ .transmit) (b : Byte) : SameCount s (takeByte b s) := by
  have goes_on (p : Phase) : SameCount s (s.goto p) := ⟨rfl, rfl⟩
  unfold takeByte
  split
  case h_1 => exact takeHeader_sameCount b s
  case h_2 | h_3 => exact expectByte_sameCount _ _ _ (goes_on _) (goes_on _)
  case h_6 | h_8 => exact expectByte_sameCount _ _ _ (goes_on _) (violate_sameCount _ _ _ s)
  case h_7 =>
    refine expectByte_sameCount _ _ _ ?_ (violate_sameCount _ _ _ s)
    rw [afterHandshake_eq_startTx rfl]
    exact startTx_sameCount { s with handshakeDone := true }
  case h_9 => exact expectByte_sameCount _ _ _ (transferEnded_sameCount s) (violate_sameCount _ _ _ s)
  case h_10 => exact takeReply_sameCount hc b
  all_goals exact ⟨rfl, rfl⟩

theorem readFailed_sameCount (k : IoKind) (s : State) : SameCount s (readFailed k s) := by
  unfold readFailed
  split
  · exact ⟨rfl, rfl⟩
  · split
    · exact raise_sameCount _ s
    · exact ⟨rfl, rfl⟩

theorem byteWritten_sameCount (s : State) : SameCount s (byteWritten s) := by
  unfold byteWritten
  split
  case h_2 | h_3 | h_7 | h_9 | h_11 | h_13 | h_19 => exact raise_sameCount _ s
  case h_4 => exact packetReceived_sameCount { s with packetNumber := nextPacket s.packetNumber }
  case h_8 => exact transferEnded_sameCount s
  case h_17 => split <;> exact ⟨rfl, rfl⟩
  all_goals exact ⟨rfl, rfl⟩

theorem writeFailed_sameCount (k : IoKind) (s : State) : SameCount s (writeFailed k s) := by
  unfold writeFailed
  split
  · exact raise_sameCount _ s
  · exact ⟨rfl, rfl⟩

theorem SameStreams.chanWr_eq {s t : State} (h : SameStreams s t) : t.chanWr = s.chanWr := by
  obtain ⟨-, -, -, hw, -⟩ := h
  exact hw

theorem SameStreams.sink_eq {s t : State} (h : SameStreams s t) : t.sink = s.sink := by
  obtain ⟨-, -, -, -, -, -, hsink, -⟩ := h
  exact hsink

/-- A step inside a command other than TRANSMIT keeps the command and its count, but for the accepted sink write (R196). -/
theorem step_sameCount_or_sinkWritten {s t : State} (hstep : step s = .next t) (hr : s.resetPin = false) (hb : s.busy = true)
    (hc : s.cmd ≠ .transmit) :
    (SameCount s t ∧ t.sink = s.sink) ∨ ∃ rest, t = sinkWritten { s with sinkAns := rest } := by
  have hport : s.phase.port ≠ none := fun hp => by simp [not_busy_of_port hp] at hb
  rcases step_cases hstep with ⟨hr', -⟩ | ⟨-, hp, -⟩ | ⟨-, hp, -⟩ | ⟨-, -, b, rest, -, rfl⟩ | ⟨-, -, k, rest, -, rfl⟩ |
    ⟨-, -, rest, -, rfl⟩ | ⟨-, -, k, wentOut, rest, -, rfl⟩ | ⟨-, -, -, rfl⟩ | ⟨-, -, b, rest, -, rfl⟩ | ⟨-, -, k, rest, -, rfl⟩ |
    ⟨-, -, rest, -, rfl⟩ | ⟨-, -, k, rest, -, rfl⟩
  · simp [hr] at hr'
  · exact absurd hp hport
  · exact absurd hp hport
  · exact .inl ⟨takeByte_sameCount (s := { s with chanRd := rest }) hc b, (takeByte_sameStreams b _).sink_eq⟩
  · exact .inl ⟨readFailed_sameCount k { s with chanRd := rest }, (readFailed_sameStreams k _).sink_eq⟩
  · exact .inl ⟨byteWritten_sameCount { s with chanWrAns := rest, chanWr := _ }, (byteWritten_sameStreams _).sink_eq⟩
  · exact .inl ⟨writeFailed_sameCount k { s with chanWrAns := rest, chanWr := _ }, (writeFailed_sameStreams k _).sink_eq⟩
  · exact .inl ⟨chunkLoaded_sameCount s, (chunkLoaded_sameStreams s).sink_eq⟩
  · exact .inl ⟨takeSourceByte_sameCount b { s with src := rest }, (takeSourceByte_sameStreams b _).sink_eq⟩
  · exact .inl ⟨raise_sameCount _ { s with src := rest }, (raise_sameStreams _ _).sink_eq⟩
  · exact .inr ⟨rest, rfl⟩
  · exact .inl ⟨raise_sameCount _ { s with sinkAns := rest }, (raise_sameStreams _ _).sink_eq⟩

/-- An accepted sink write counts the 128 bytes it appends (R56, R196). -/
theorem sinkWritten_counts (s : State) :
    (sinkWritten s).cmd = s.cmd ∧ (sinkWritten s).total = s.total + 128 ∧ (sinkWritten s).sink.length = s.sink.length + 128 := by
  obtain ⟨hcmd, htotal⟩ := startRx_sameCount
    { s with sink := s.sink ++ s.x.toList, total := s.total + dataLen, len := dataLen }
  have hsink := (startRx_sameStreams
    { s with sink := s.sink ++ s.x.toList, total := s.total + dataLen, len := dataLen }).sink_eq
  exact ⟨hcmd, htotal, by rw [sinkWritten, hsink]; simp⟩

/-- Settles O57: an accepted sink write appends 128 bytes and counts 128, and no other step of RECEIVE does either. -/
theorem receiveCountsItsSink : Obligations.ReceiveCountsItsSink := by
  intro s t hstep hr hb hc
  rcases step_sameCount_or_sinkWritten hstep hr hb (by simp [hc]) with ⟨⟨hcmd, htotal⟩, hsink⟩ | ⟨rest, rfl⟩
  · exact ⟨hcmd.trans hc, by rw [htotal, hsink]⟩
  · obtain ⟨hcmd, htotal, hlength⟩ := sinkWritten_counts { s with sinkAns := rest }
    exact ⟨hcmd.trans hc, by dsimp only at htotal hlength; omega⟩

/-! ### TRANSMIT's outer retry -/

/-- What an interrupted channel does to a chunk of TRANSMIT: its TX_PACKET is issued again, or the chunk is given up (R203). -/
theorem raise_interrupted {s : State} (hc : s.cmd = .transmit) (hl : s.len = 128) {e : CmdError} (he : e.interruptedChannel = true) :
    raise e s =
      if s.outer = 10 then failedWith (.retryExhausted .outer) s
      else if s.handshakeDone then { s with outer := s.outer + 1, attempt := 1, phase := .txSoh }
      else { s with outer := s.outer + 1, phase := .txHandshake } := by
  have hretry : outerRetry e s = true := (outerRetry_iff e s).mpr ⟨hc, hl, he⟩
  rw [raise, if_pos hretry, startTx_eq]
  cases hd : s.handshakeDone <;> simp [hd, hl, failedWith, endCommand]

/-- Settles O41: the failed read or write raises an `IoFailure` of its site, and `raise_interrupted` says what that does. -/
theorem interruptedChunkIsReissued : Obligations.InterruptedChunkIsReissued := by
  intro s hr hc hl howner u hu
  rcases hu with ⟨rest, hport, ha, rfl⟩ | ⟨wentOut, rest, hport, ha, rfl⟩
  · obtain ⟨site, hsite, hdata⟩ : ∃ site, s.phase.site = some site ∧ site ≠ .rxData := by
      revert howner hport
      cases s.phase <;> simp [Phase.owner, Phase.port, Phase.site]
    rw [step_at_read hr hport]
    simp only [readStep, ha]
    rw [readFailed_of_site _ (by exact hsite) hdata]
    exact congrArg _ (raise_interrupted (s := { s with chanRd := rest }) hc hl rfl)
  · obtain ⟨site, hsite⟩ : ∃ site, s.phase.site = some site := by
      have hb := busy_of_port hport
      rwa [busy_eq_site_isSome, Option.isSome_iff_exists] at hb
    rw [step_at_write hr hport]
    simp only [writeStep, ha]
    rw [writeFailed_of_site _ (by exact hsite)]
    exact congrArg _ (raise_interrupted (s := { s with chanWrAns := rest, chanWr := _ }) hc hl rfl)

end Sys2Proof.Machine
end

section
/-! SUPPORT. TRANSMIT from its source to its end (R200 to R205): how a chunk is filled and padded, the packets of a source, and the run
over all of them. -/

namespace Sys2Proof.Machine

/-! ### Filling a chunk -/

/-- The bytes of `l` are stored in `v` one after the other, from entry `n` on. -/
def storeFrom {α : Type} {k : Nat} : Nat → List α → Vector α k → Vector α k
  | _, [], v => v
  | n, a :: l, v => storeFrom (n + 1) l (v.setIfInBounds n a)

theorem storeFrom_append {α : Type} {k : Nat} (n : Nat) (l m : List α) (v : Vector α k) :
    storeFrom n (l ++ m) v = storeFrom (n + l.length) m (storeFrom n l v) := by
  induction l generalizing n v with
  | nil => rfl
  | cons a l ih =>
    rw [List.cons_append, storeFrom, storeFrom, ih, List.length_cons]
    congr 1
    omega

/-- What has been stored stands behind the entries below `n`, which are kept. -/
theorem take_storeFrom {α : Type} {k n : Nat} {l : List α} (v : Vector α k) (h : n + l.length ≤ k) :
    (storeFrom n l v).toList.take (n + l.length) = v.toList.take n ++ l := by
  induction l generalizing n v with
  | nil => simp [storeFrom]
  | cons a l ih =>
    rw [List.length_cons] at h ⊢
    have hn : n < v.toList.length := by rw [Vector.length_toList]; omega
    rw [storeFrom, ← Nat.succ_add_eq_add_succ, ih _ (by omega), Vector.toList_setIfInBounds]
    simp [List.take_add_one, List.take_set_of_le, List.getElem?_set_self hn]

/-- The source bytes `d` have been read into the chunk in hand, and `rest` is what the source answers next (R200). -/
def State.sourced (s : State) (d : List Byte) (rest : List SrcAnswer) : State :=
  { s with
    x := storeFrom s.n d s.x
    xWritten := storeFrom s.n (d.map fun _ => true) s.xWritten
    n := s.n + d.length
    pos := s.pos + d.length
    src := rest }

theorem sourced_sourced (s : State) (d e : List Byte) (r rest : List SrcAnswer) :
    (s.sourced d r).sourced e rest = s.sourced (d ++ e) rest := by
  simp only [State.sourced, storeFrom_append, List.map_append, List.length_append, List.length_map, Nat.add_assoc]

/-- A byte of the source is stored, and the chunk is complete with its 128th (R200). -/
theorem step_sources_byte {s : State} (hr : s.resetPin = false) (hp : s.phase = .trSrc) {b : Byte} {rest : List SrcAnswer}
    (hsrc : s.src = .byte b :: rest) :
    step s = .next (if s.n + 1 < 128 then s.sourced [b] rest else chunkLoaded (s.sourced [b] rest)) := by
  rw [step_at_source hr (by rw [hp]; rfl), sourceStep, sourceAnswers_of_cons hsrc]
  rfl

/-- Source bytes that do not complete the chunk (R200). -/
theorem runSteps_sourced (d : List Byte) {s : State} (hr : s.resetPin = false) (hp : s.phase = .trSrc)
    {rest : List SrcAnswer} (hsrc : s.src = d.map .byte ++ rest) (hd : s.n + d.length < 128) :
    runSteps d.length s = .next (s.sourced d rest) := by
  induction d generalizing s with
  | nil =>
    obtain rfl : s.src = rest := hsrc
    rfl
  | cons b d ih =>
    rw [List.length_cons] at hd
    have hstep := step_sources_byte hr hp hsrc
    rw [if_pos (by omega)] at hstep
    have hrest := ih (s := s.sourced [b] (d.map .byte ++ rest)) hr hp rfl (by simp only [State.sourced, List.length_singleton]; omega)
    rw [sourced_sourced, List.singleton_append] at hrest
    exact (runSteps_succ_of_next hstep).trans hrest

/-- The chunk of a source that has `D` left: its first bytes are in `x` with zeros behind them, and the packet call has its operand
(R200, R201, R203). -/
def State.withChunk (s : State) (D : List Byte) : State :=
  { s with
    x := Vector.mk (padChunk (D.take 128)).toArray (by simp [padChunk])
    xWritten := Vector.replicate 128 true
    n := min 128 D.length
    pos := s.pos + min 128 D.length
    src := (D.drop 128).map .byte
    outer := if D = [] then s.outer else 1
    len := if D = [] then 0 else 128 }

/-- The chunk in hand is padded and its packet call issued (R200, R201). -/
theorem chunkLoaded_sourced {s : State} (hn : s.n = 0) (D : List Byte) :
    chunkLoaded (s.sourced (D.take 128) ((D.drop 128).map .byte)) = startTx (s.withChunk D) := by
  have hlen : (D.take 128).length ≤ 128 := by simp
  have hx : padFrom (D.take 128).length (storeFrom 0 (D.take 128) s.x) =
      Vector.mk (padChunk (D.take 128)).toArray (by simp [padChunk]) := by
    apply Vector.toList_inj.mp
    have htake := take_storeFrom (n := 0) (l := D.take 128) s.x (by rwa [Nat.zero_add])
    rw [Nat.zero_add] at htake
    rw [padFrom_toList, htake]
    rfl
  have hw : writtenFrom (D.take 128).length (storeFrom 0 ((D.take 128).map fun _ => true) s.xWritten) =
      Vector.replicate 128 true := by
    apply Vector.toList_inj.mp
    have htake := take_storeFrom (n := 0) (l := (D.take 128).map fun _ => true) s.xWritten (by simp)
    rw [Nat.zero_add, List.length_map] at htake
    rw [writtenFrom_toList, htake, List.map_const', List.take_zero, List.nil_append, List.replicate_append_replicate,
      Vector.toList_replicate, dataLen_eq, Nat.add_sub_cancel' hlen]
  have hpad : (s.sourced (D.take 128) ((D.drop 128).map .byte)).padX =
      { s.withChunk D with outer := s.outer, len := s.len } := by
    simp only [State.padX, State.sourced, hn, Nat.zero_add, hx, hw]
    simp only [State.withChunk, List.length_take]
  have hzero : (s.sourced (D.take 128) ((D.drop 128).map .byte)).n = 0 ↔ D = [] := by
    simp [State.sourced, hn]
  simp only [chunkLoaded, hpad, hzero]
  split
  · next hD => simp only [State.withChunk, hD, if_true]
  · next hD => simp only [State.withChunk, hD, if_false]

/-- TRANSMIT is at its source with no byte of the next chunk read, and the source has `D` left and then ends (R200; log 3). -/
structure AtSource (D : List Byte) (s : State) : Prop where
  resetPin : s.resetPin = false
  phase : s.phase = .trSrc
  n : s.n = 0
  src : s.src = D.map .byte
  ends : s.again.src = []

/-- The source is read up to a full chunk or to its end, and then the packet call is issued (R200, R201). -/
theorem AtSource.runSteps_chunk {D : List Byte} {s : State} (h : AtSource D s) :
    runSteps (if D.length < 128 then D.length + 1 else 128) s = .next (startTx (s.withChunk D)) := by
  rw [← chunkLoaded_sourced h.n]
  by_cases hD : D.length < 128
  · have hrun := runSteps_sourced D (rest := []) h.resetPin h.phase (by rw [h.src, List.append_nil]) (by rw [h.n]; omega)
    have hstep : step (s.sourced D []) = .next (chunkLoaded (s.sourced D [])) := by
      have hend : (s.sourced D []).sourceAnswers = [] := h.ends
      rw [step_at_source (s := s.sourced D []) h.resetPin (by exact h.phase ▸ rfl), sourceStep, hend]
    rw [if_pos hD, runSteps_add_of_next hrun, runSteps_succ_of_next hstep, List.take_of_length_le (by omega),
      List.drop_eq_nil_of_le (by omega)]
    rfl
  · have hsplit : D = D.take 127 ++ D[127] :: D.drop 128 := by
      rw [← List.drop_eq_getElem_cons, List.take_append_drop]
    have htake : D.take 127 ++ [D[127]] = D.take 128 := List.take_append_getElem (by omega)
    have hlen : (D.take 127).length = 127 := by simp; omega
    have hsrc : s.src = (D.take 127).map .byte ++ .byte D[127] :: (D.drop 128).map .byte := by
      rw [h.src, ← List.map_cons, ← List.map_append, ← hsplit]
    have hrun := runSteps_sourced (D.take 127) h.resetPin h.phase hsrc (by rw [h.n, hlen]; omega)
    have hstep := step_sources_byte (s := s.sourced (D.take 127) (.byte D[127] :: (D.drop 128).map .byte)) h.resetPin h.phase rfl
    rw [if_neg (by simp only [State.sourced, h.n, hlen]; omega), sourced_sourced, htake] at hstep
    rw [hlen] at hrun
    rw [if_neg hD]
    exact (runSteps_add_of_next (k := 1) hrun).trans (runSteps_succ_of_next hstep)

/-- Settles O40: `AtSource.runSteps_chunk`, and `startTx_eq` says where the packet call goes first. -/
theorem chunkIsFilledAndPadded : Obligations.ChunkIsFilledAndPadded := by
  intro s D hr hp hn hsrc hends
  rw [AtSource.runSteps_chunk ⟨hr, hp, hn, hsrc, hends⟩, startTx_eq]
  cases hd : s.handshakeDone with
  | false => simp [State.withChunk, hd]
  | true => by_cases hD : D = [] <;> simp [State.withChunk, hd, hD]

/-! ### The packets of a source -/

/-- A source is empty, or it is a chunk and what stands behind it (R201). -/
theorem chunk_induction {motive : List Byte → Prop} (nil : motive [])
    (chunk : ∀ D, D ≠ [] → motive (D.drop 128) → motive D) (D : List Byte) : motive D :=
  if h : D = [] then h ▸ nil else chunk D h (chunk_induction nil chunk (D.drop 128))
termination_by D.length
decreasing_by
  have hpos := List.length_pos_iff.mpr h
  rw [List.length_drop]
  omega

/-- More fuel than there are bytes makes no difference. -/
theorem chunksUpTo_of_length_le (D : List Byte) {fuel : Nat} (h : D.length ≤ fuel) : chunksUpTo fuel D = packetsOf D := by
  induction D using chunk_induction generalizing fuel with
  | nil => cases fuel <;> rfl
  | chunk D hD ih =>
    obtain ⟨m, hm⟩ := Nat.exists_eq_succ_of_ne_zero (mt List.length_eq_zero_iff.mp hD)
    obtain ⟨fuel, rfl⟩ := Nat.exists_eq_succ_of_ne_zero (n := fuel) (by omega)
    rw [packetsOf, hm, chunksUpTo, chunksUpTo, if_neg hD, if_neg hD, ih (by rw [List.length_drop]; omega),
      ih (by rw [List.length_drop]; omega)]

theorem packetsOf_nil : packetsOf [] = [] := rfl

/-- The first packet of a source is its first chunk, padded (R64, R201). -/
theorem packetsOf_of_ne_nil {D : List Byte} (hD : D ≠ []) : packetsOf D = padChunk (D.take 128) :: packetsOf (D.drop 128) := by
  rw [← chunksUpTo_of_length_le D (Nat.le_succ _), chunksUpTo, if_neg hD, chunksUpTo_of_length_le _ (by simp)]

theorem length_padChunk {d : List Byte} (h : d.length ≤ 128) : (padChunk d).length = 128 := by
  rw [padChunk, List.length_append, List.length_replicate, Nat.add_sub_cancel' h]

/-! ### One packet -/

/-- Some number of steps leads from the one state to the other. -/
def Reaches (s t : State) : Prop := ∃ k, runSteps k s = .next t

theorem reaches_of_step {s t : State} (h : step s = .next t) : Reaches s t := ⟨1, runSteps_succ_of_next h⟩

theorem Reaches.trans {s t u : State} (h : Reaches s t) (h' : Reaches t u) : Reaches s u := by
  obtain ⟨j, hj⟩ := h
  obtain ⟨k, hk⟩ := h'
  exact ⟨j + k, (runSteps_add_of_next hj).trans hk⟩

/-- The chunk's frame has been sent for the first time and the reply is due, with the answers that are left (R166). -/
def State.sentChunk (s : State) (D : List Byte) (rd : List ReadAnswer) (wr : List WriteAnswer) : State :=
  { s.withChunk D with
    handshakeDone := true
    attempt := 1
    phase := .txReply
    acc := sum8 (padChunk (D.take 128))
    chanRd := rd
    chanWrAns := wr
    chanWr := s.chanWr ++ frameOf s.config s.packetNumber (padChunk (D.take 128)) }

/-- The chunk has been acknowledged and counted, and the next one begins (R168, R202). -/
def State.ackedChunk (s : State) (D : List Byte) (rd : List ReadAnswer) (wr : List WriteAnswer) : State :=
  { s.sentChunk D rd wr with
    packetNumber := nextPacket s.packetNumber
    total := s.total + min 128 D.length
    n := 0
    phase := .trSrc }

/-- The empty-packet call begins its EOT exchange (R163, R204). -/
def State.atFirstEot (s : State) (rd : List ReadAnswer) : State :=
  { s.withChunk [] with handshakeDone := true, chanRd := rd, phase := .txEot1Send }

namespace AtSource

variable {D : List Byte} {s : State} (h : AtSource D s) {rd : List ReadAnswer}
  (hc : s.chanRd = List.replicate (if s.handshakeDone then 0 else 1) (.byte 0x15) ++ rd)
include h hc

/-- The chunk is read and its packet call passes the handshake, if it is due (R162, R200). -/
theorem reaches_packetCall : Reaches s (startTx ((s.withChunk D).handshaken rd)) :=
  Reaches.trans ⟨_, h.runSteps_chunk⟩ ⟨_, startTx_passes_handshake (s := s.withChunk D) h.resetPin hc⟩

/-- A chunk that is not empty is sent (R166, R200). -/
theorem reaches_sentChunk (hD : D ≠ []) {wr : List WriteAnswer} (hw : s.chanWrAns = accepts 132 ++ wr) :
    Reaches s (s.sentChunk D rd wr) := by
  have hstart : startTx ((s.withChunk D).handshaken rd) =
      { (s.withChunk D).handshaken rd with attempt := 1, phase := .txSoh } := by
    rw [startTx_eq, if_neg nofun, if_neg (by simp [State.handshaken, State.withChunk, hD])]
  have hframe := transmissionWritesTheFrame { (s.withChunk D).handshaken rd with attempt := 1, phase := .txSoh } wr h.resetPin rfl hw
  exact (h.reaches_packetCall hc).trans ⟨132, hstart ▸ hframe⟩

/-- An empty chunk is the empty-packet call (R200, R204). -/
theorem reaches_firstEot (hD : D = []) : Reaches s (s.atFirstEot rd) := by
  subst hD
  exact h.reaches_packetCall hc

end AtSource

/-- The ACK of a chunk (R168, R202). -/
theorem step_acksChunk {s : State} (hr : s.resetPin = false) (hcmd : s.cmd = .transmit) (D : List Byte) (rd : List ReadAnswer)
    (wr : List WriteAnswer) : step (s.sentChunk D (.byte 0x06 :: rd) wr) = .next (s.ackedChunk D rd wr) := by
  obtain ⟨-, hreply⟩ := replyByteTable
  have hack := hreply (s.sentChunk D (.byte 0x06 :: rd) wr) 0x06 rd hr rfl rfl (.inr hcmd)
  rw [if_pos rfl, if_pos (by exact hcmd)] at hack
  exact hack

theorem AtSource.ackedChunk {D : List Byte} {s : State} (h : AtSource D s) (rd : List ReadAnswer) (wr : List WriteAnswer) :
    AtSource (D.drop 128) (s.ackedChunk D rd wr) :=
  ⟨h.resetPin, rfl, rfl, rfl, h.ends⟩

/-! ### The whole transfer -/

/-- TRANSMIT ends with its count (R205). -/
theorem transferEnded_of_transmit {s : State} (hc : s.cmd = .transmit) : transferEnded s = returned s.total .terminated s := by
  rw [transferEnded_of_sender (.inr hc), if_pos hc]

/-- What TRANSMIT leaves at its end, if it was at its source in `s` with `D` left to send (R202, R204, R205). -/
structure TransmitEnded (s : State) (D : List Byte) (rest : List ReadAnswer) (restW : List WriteAnswer) (u : State) : Prop where
  result : u.result = .ok (s.total + D.length)
  resultValid : u.resultValid = true
  phase : u.phase = .terminated
  packetNumber : u.packetNumber = packetAfter (packetsOf D).length s.packetNumber
  handshakeDone : u.handshakeDone = true
  role : u.role = s.role
  chanWr : u.chanWr = s.chanWr ++ framesFrom s.config s.packetNumber (packetsOf D) ++ [0x04, 0x04]
  chanRd : u.chanRd = rest
  chanWrAns : u.chanWrAns = restW
  src : u.src = []
  sink : u.sink = s.sink
  host : u.host = s.host
  config : u.config = s.config

/-- From its source on TRANSMIT sends what is left, chunk by chunk, and ends (R200 to R205). -/
theorem AtSource.transmits (D : List Byte) {s : State} (h : AtSource D s) (hcmd : s.cmd = .transmit)
    {rest : List ReadAnswer} {restW : List WriteAnswer}
    (hc : s.chanRd = List.replicate (if s.handshakeDone then 0 else 1) (.byte 0x15) ++
      (List.replicate (packetsOf D).length (.byte 0x06) ++ .byte 0x15 :: .byte 0x06 :: rest))
    (hw : s.chanWrAns = accepts (132 * (packetsOf D).length + 2) ++ restW) :
    ∃ u, Reaches s u ∧ TransmitEnded s D rest restW u := by
  induction D using chunk_induction generalizing s with
  | nil =>
    have heot := runSteps_eotExchange (s := s.atFirstEot (.byte 0x15 :: .byte 0x06 :: rest)) h.resetPin rfl rfl hw
    exact ⟨_, (h.reaches_firstEot hc rfl).trans ⟨4, heot.trans (congrArg _ (transferEnded_of_transmit hcmd))⟩, {
      result := rfl
      resultValid := rfl
      phase := rfl
      packetNumber := rfl
      handshakeDone := rfl
      role := rfl
      chanWr := by rw [packetsOf_nil, framesFrom, List.append_nil]; rfl
      chanRd := rfl
      chanWrAns := rfl
      src := rfl
      sink := rfl
      host := rfl
      config := rfl }⟩
  | chunk D hD ih =>
    rw [packetsOf_of_ne_nil hD, List.length_cons] at hc hw
    rw [List.replicate_succ, List.cons_append] at hc
    rw [show 132 * ((packetsOf (D.drop 128)).length + 1) + 2 = 132 + (132 * (packetsOf (D.drop 128)).length + 2) by omega, accepts,
      ← List.replicate_append_replicate, List.append_assoc] at hw
    have hsent := (h.reaches_sentChunk hc hD hw).trans (reaches_of_step (step_acksChunk h.resetPin hcmd D _ _))
    obtain ⟨u, hrun, hend⟩ := ih (h.ackedChunk _ _) hcmd rfl rfl
    refine ⟨u, hsent.trans hrun, ?_⟩
    have hcount : s.total + min 128 D.length + (D.drop 128).length = s.total + D.length := by
      rw [List.length_drop]
      omega
    exact {
      result := by rw [hend.result, ← hcount]; rfl
      resultValid := hend.resultValid
      phase := hend.phase
      packetNumber := by rw [hend.packetNumber, packetsOf_of_ne_nil hD]; rfl
      handshakeDone := hend.handshakeDone
      role := hend.role
      chanWr := by
        rw [hend.chanWr, packetsOf_of_ne_nil hD, framesFrom]
        simp only [State.ackedChunk, State.sentChunk, State.withChunk, List.append_assoc]
      chanRd := hend.chanRd
      chanWrAns := hend.chanWrAns
      src := hend.src
      sink := hend.sink
      host := hend.host
      config := hend.config }

/-- Settles O44: TRANSMIT begins at its source with a fresh engine, and `AtSource.transmits` is the rest. -/
theorem transmitSendsEveryChunk : Obligations.TransmitSendsEveryChunk := by
  intro s D rest restW hr hb hsrc hends hc hw
  rw [List.cons_append] at hc
  obtain ⟨u, ⟨k, hrun⟩, hend⟩ := AtSource.transmits D
    (s := { freshEngine s with cmd := .transmit, role := some .sender, total := 0, n := 0, phase := .trSrc })
    ⟨hr, rfl, rfl, hsrc, hends⟩ rfl hc hw
  have hresult := hend.result
  rw [Nat.zero_add] at hresult
  exact ⟨_, u, k, exec_transmit_of_not_busy hb, hrun, hresult, hend.resultValid, hend.phase, hend.packetNumber, hend.handshakeDone,
    hend.role, hend.chanWr, hend.chanRd, hend.chanWrAns, hend.src, hend.sink, hend.host, hend.config⟩

end Sys2Proof.Machine
end

section
/-! SUPPORT. RECEIVE from its handshake to its end (R195, R196): the run over one packet and its sink write, the two EOTs, and the run
over all packets. -/

namespace Sys2Proof.Machine

/-- RECEIVE is at its header read, the handshake being done (R130, R195). -/
structure AtHeader (s : State) : Prop where
  resetPin : s.resetPin = false
  phase : s.phase = .rxHeader
  cmd : s.cmd = .receive
  handshakeDone : s.handshakeDone = true

/-- The packet `d` has been acknowledged and is in the sink, with the answers that are left (R141, R195, R196). -/
def State.delivered (s : State) (d : List Byte) (h : d.length = 128) (rd : List ReadAnswer) (wr : List WriteAnswer)
    (sk : List SinkAnswer) : State :=
  { s with
    packetNumber := nextPacket s.packetNumber
    x := Vector.mk d.toArray (by simpa using h)
    xWritten := Vector.replicate 128 true
    acc := sum8 d
    len := 128
    total := s.total + 128
    phase := .rxHeader
    chanRd := rd
    chanWrAns := wr
    chanWr := s.chanWr ++ [0x06]
    sinkAns := sk
    sink := s.sink ++ d }

/-- The first EOT has been answered with NAK, and the second is due (R134). -/
def State.atSecondEot (s : State) (rd : List ReadAnswer) (wr : List WriteAnswer) : State :=
  { s with phase := .rxEot2, chanRd := rd, chanWrAns := wr, chanWr := s.chanWr ++ [0x15] }

/-- The second EOT has been answered with ACK (R136). -/
def State.eotsAnswered (s : State) (rd : List ReadAnswer) (wr : List WriteAnswer) : State :=
  { s with chanRd := rd, chanWrAns := wr, chanWr := s.chanWr ++ [0x15, 0x06] }

/-- In RECEIVE an acknowledged packet goes to the sink (R195). -/
theorem packetReceived_of_receive {s : State} (hc : s.cmd = .receive) : packetReceived s = s.goto .rcSink := by
  rw [packetReceived_of_receiver (.inr hc), if_pos hc]

/-- RECEIVE begins with the handshake NAK (R132, R195). -/
theorem step_receive_handshake {s : State} (hr : s.resetPin = false) (hp : s.phase = .rxHsNak) {wr : List WriteAnswer}
    (hw : s.chanWrAns = .accepted :: wr) :
    step s = .next { s with
      handshakeDone := true, phase := .rxHeader, chanWrAns := wr, chanWr := s.chanWr ++ [0x15] } := by
  obtain ⟨-, hwrite⟩ := handshakeNakWrittenOnce
  obtain ⟨hnak, -⟩ := hwrite s hr hp
  exact hnak wr (writeAnswers_of_cons hw)

namespace AtHeader

variable {s : State} (h : AtHeader s)
include h

/-- A packet with the expected number and the right checksum: its 132 reads, the ACK and the sink write (R139, R141, R195). -/
theorem runSteps_delivered {d : List Byte} (hd : d.length = 128) {rd : List ReadAnswer} {wr : List WriteAnswer}
    {sk : List SinkAnswer} (hc : s.chanRd = (frameOf s.config s.packetNumber d).map .byte ++ rd)
    (hw : s.chanWrAns = .accepted :: wr) (hk : s.sinkAns = .accepted :: sk) :
    runSteps 134 s = .next (s.delivered d hd rd wr sk) := by
  have haccept := (runSteps_accepted hd h.resetPin h.phase (readAnswers_of_frame hc) (writeAnswers_of_cons hw)).trans
    (congrArg _ (packetReceived_of_receive h.cmd))
  rw [runSteps_add_of_next (k := 1) haccept]
  exact runSteps_succ_of_next (sinkTakesThePacket _ sk h.resetPin rfl h.handshakeDone (sinkAnswers_of_cons hk))

/-- The first EOT, and the NAK that answers it (R85, R134). -/
theorem runSteps_firstEot {rd : List ReadAnswer} {wr : List WriteAnswer} (hc : s.chanRd = .byte 0x04 :: rd)
    (hw : s.chanWrAns = .accepted :: wr) : runSteps 2 s = .next (s.atSecondEot rd wr) := by
  have hread := headerByteTable s 0x04 rd h.resetPin h.phase (readAnswers_of_cons hc)
  obtain ⟨hnak, -⟩ := receiverTermination { s with phase := .rxEotNak, chanRd := rd } h.resetPin
  exact (runSteps_succ_of_next hread).trans (runSteps_succ_of_next (hnak wr rfl (writeAnswers_of_cons hw)))

/-- The second EOT, and the ACK that ends RECEIVE with its count (R86, R136, R196). -/
theorem runSteps_secondEot {rd : List ReadAnswer} {wr : List WriteAnswer} :
    runSteps 2 (s.atSecondEot (.byte 0x04 :: rd) (.accepted :: wr)) = .next (returned s.total .terminated (s.eotsAnswered rd wr)) := by
  obtain ⟨-, -, -, hsites⟩ := receiverExpectedByteTable
  obtain ⟨-, -, heot⟩ := hsites (s.atSecondEot (.byte 0x04 :: rd) (.accepted :: wr)) 0x04 rd h.resetPin rfl
  obtain ⟨-, hack, -⟩ := receiverTermination { s.atSecondEot rd (.accepted :: wr) with phase := .rxEotAck } h.resetPin
  have hend := hack wr rfl (.inr h.cmd) rfl
  rw [if_pos (by exact h.cmd)] at hend
  refine (runSteps_succ_of_next (heot rfl)).trans ((runSteps_succ_of_next hend).trans ?_)
  simp [State.atSecondEot, State.eotsAnswered, returned]

theorem delivered {d : List Byte} (hd : d.length = 128) (rd : List ReadAnswer) (wr : List WriteAnswer) (sk : List SinkAnswer) :
    AtHeader (s.delivered d hd rd wr sk) :=
  ⟨h.resetPin, rfl, h.cmd, h.handshakeDone⟩

end AtHeader

/-- What RECEIVE leaves at its end, if it was at its header read in `s` and the packets `ds` were still to come (R195, R196). -/
structure ReceiveEnded (s : State) (ds : List (List Byte)) (rest : List ReadAnswer) (restW : List WriteAnswer)
    (restS : List SinkAnswer) (u : State) : Prop where
  result : u.result = .ok (s.total + 128 * ds.length)
  resultValid : u.resultValid = true
  phase : u.phase = .terminated
  packetNumber : u.packetNumber = packetAfter ds.length s.packetNumber
  handshakeDone : u.handshakeDone = true
  role : u.role = s.role
  sink : u.sink = s.sink ++ ds.flatten
  chanWr : u.chanWr = s.chanWr ++ List.replicate ds.length 0x06 ++ [0x15, 0x06]
  chanRd : u.chanRd = rest
  chanWrAns : u.chanWrAns = restW
  sinkAns : u.sinkAns = restS
  src : u.src = s.src
  host : u.host = s.host
  config : u.config = s.config

/-- From its header read on RECEIVE delivers packet after packet, and ends with the EOTs (R195, R196). -/
theorem AtHeader.receives (ds : List (List Byte)) {s : State} (h : AtHeader s) (hds : ∀ d ∈ ds, d.length = 128)
    {rest : List ReadAnswer} {restW : List WriteAnswer} {restS : List SinkAnswer}
    (hc : s.chanRd = (framesFrom s.config s.packetNumber ds).map .byte ++ .byte 0x04 :: .byte 0x04 :: rest)
    (hw : s.chanWrAns = accepts (ds.length + 2) ++ restW)
    (hk : s.sinkAns = List.replicate ds.length .accepted ++ restS) :
    ∃ u, runSteps (134 * ds.length + 4) s = .next u ∧ ReceiveEnded s ds rest restW restS u := by
  induction ds generalizing s with
  | nil =>
    have hfirst := h.runSteps_firstEot hc hw
    refine ⟨_, (runSteps_add_of_next (k := 2) hfirst).trans h.runSteps_secondEot, ?_⟩
    exact {
      result := rfl
      resultValid := rfl
      phase := rfl
      packetNumber := rfl
      handshakeDone := h.handshakeDone
      role := rfl
      sink := (List.append_nil _).symm
      chanWr := congrArg (· ++ [0x15, 0x06]) (List.append_nil s.chanWr).symm
      chanRd := rfl
      chanWrAns := rfl
      sinkAns := hk
      src := rfl
      host := rfl
      config := rfl }
  | cons d ds ih =>
    obtain ⟨hd, hds'⟩ := List.forall_mem_cons.mp hds
    rw [framesFrom, List.map_append, List.append_assoc] at hc
    rw [List.length_cons, List.replicate_succ, List.cons_append] at hk
    have hpacket := h.runSteps_delivered hd hc (wr := accepts (ds.length + 2) ++ restW)
      (by rw [hw, List.length_cons, Nat.add_right_comm]; rfl) hk
    have hnext := h.delivered hd ((framesFrom s.config (nextPacket s.packetNumber) ds).map .byte ++ .byte 0x04 :: .byte 0x04 :: rest)
      (accepts (ds.length + 2) ++ restW) (List.replicate ds.length .accepted ++ restS)
    obtain ⟨u, hrun, hend⟩ := ih hnext hds' rfl rfl rfl
    refine ⟨u, ?_, ?_⟩
    · rw [List.length_cons, show 134 * (ds.length + 1) + 4 = 134 + (134 * ds.length + 4) by omega]
      exact (runSteps_add_of_next hpacket).trans hrun
    exact {
      result := by
        rw [hend.result, List.length_cons, Nat.mul_succ, Nat.add_comm (128 * ds.length), ← Nat.add_assoc]
        rfl
      resultValid := hend.resultValid
      phase := hend.phase
      packetNumber := hend.packetNumber
      handshakeDone := hend.handshakeDone
      role := hend.role
      sink := by rw [hend.sink, List.flatten_cons, ← List.append_assoc]; rfl
      chanWr := by rw [hend.chanWr, List.length_cons, List.replicate_succ, List.append_cons s.chanWr]; rfl
      chanRd := hend.chanRd
      chanWrAns := hend.chanWrAns
      sinkAns := hend.sinkAns
      src := hend.src
      host := hend.host
      config := hend.config }

/-- Settles O43: RECEIVE begins with a fresh engine and the handshake NAK, and `AtHeader.receives` is the rest. -/
theorem receiveDeliversEveryPacket : Obligations.ReceiveDeliversEveryPacket := by
  intro s ds rest restW restS hr hb hds hc hw hk
  have hnak := step_receive_handshake
    (s := { freshEngine s with cmd := .receive, role := some .receiver, len := 128, total := 0, phase := .rxHsNak })
    hr rfl (wr := accepts (ds.length + 2) ++ restW) hw
  obtain ⟨u, hrun, hend⟩ := AtHeader.receives ds
    (s := { freshEngine s with
      cmd := .receive, role := some .receiver, len := 128, total := 0, handshakeDone := true, phase := .rxHeader
      chanWrAns := accepts (ds.length + 2) ++ restW, chanWr := s.chanWr ++ [0x15] })
    ⟨hr, rfl, rfl, rfl⟩ hds hc rfl hk
  have hresult := hend.result
  have hwritten := hend.chanWr
  rw [Nat.zero_add] at hresult
  rw [← List.append_cons] at hwritten
  exact ⟨_, u, exec_receive_of_not_busy hb, (runSteps_succ_of_next hnak).trans hrun, hresult, hend.resultValid, hend.phase,
    hend.packetNumber, hend.handshakeDone, hend.role, hend.sink, hwritten, hend.chanRd, hend.chanWrAns, hend.sinkAns, hend.src,
    hend.host, hend.config⟩

end Sys2Proof.Machine
end

section
/-! SUPPORT. An engine on the clean channel of R62 (log 27): what the channel and the sink have taken, and the answers they give, decide
nothing about a step but which answer it takes, so a run whose writes are all accepted is a run on the clean channel. -/

namespace Sys2Proof.Machine

/-- The channel has taken `w`, and `a` and `k` are the next answers to channel writes and to sink writes. -/
def State.onWires (s : State) (w : List Byte) (a : List WriteAnswer) (k : List SinkAnswer) : State :=
  { s with chanWr := w, chanWrAns := a, sinkAns := k }

/-! ### No operation looks at the wires -/

section OnWires

variable (s : State) (w : List Byte) (a : List WriteAnswer) (k : List SinkAnswer)

@[simp] theorem onWires_cmd : (s.onWires w a k).cmd = s.cmd := rfl
@[simp] theorem onWires_phase : (s.onWires w a k).phase = s.phase := rfl

theorem startRx_onWires : startRx (s.onWires w a k) = (startRx s).onWires w a k := by
  unfold startRx
  rw [apply_ite (State.onWires · w a k)]
  rfl

theorem afterHandshake_onWires : afterHandshake (s.onWires w a k) = (afterHandshake s).onWires w a k := by
  unfold afterHandshake
  rw [apply_ite (State.onWires · w a k)]
  rfl

theorem startTx_onWires : startTx (s.onWires w a k) = (startTx s).onWires w a k := by
  unfold startTx
  rw [apply_ite (State.onWires · w a k), afterHandshake_onWires]
  rfl

theorem raise_onWires (e : CmdError) : raise e (s.onWires w a k) = (raise e s).onWires w a k := by
  unfold raise
  rw [apply_ite (State.onWires · w a k), apply_ite (State.onWires · w a k), ← startTx_onWires]
  rfl

theorem packetReceived_onWires : packetReceived (s.onWires w a k) = (packetReceived s).onWires w a k := by
  cases hc : s.cmd <;> simp only [packetReceived, onWires_cmd, hc] <;> rfl

theorem packetSent_onWires : packetSent (s.onWires w a k) = (packetSent s).onWires w a k := by
  cases hc : s.cmd <;> simp only [packetSent, onWires_cmd, hc] <;> rfl

theorem transferEnded_onWires : transferEnded (s.onWires w a k) = (transferEnded s).onWires w a k := by
  cases hc : s.cmd <;> simp only [transferEnded, onWires_cmd, hc] <;> rfl

theorem violate_onWires (emit : Bool) (p : Phase) (site : Site) :
    violate emit p site (s.onWires w a k) = (violate emit p site s).onWires w a k := by
  cases emit with
  | false => exact raise_onWires s w a k _
  | true => rfl

theorem expectByte_onWires (e b : Byte) (site : Site) (m v : State) :
    expectByte e b site (m.onWires w a k) (v.onWires w a k) (s.onWires w a k) = (expectByte e b site m v s).onWires w a k := by
  unfold expectByte
  rw [apply_ite (State.onWires · w a k), apply_ite (State.onWires · w a k), raise_onWires]

theorem takeHeader_onWires (b : Byte) : takeHeader b (s.onWires w a k) = (takeHeader b s).onWires w a k := by
  unfold takeHeader
  simp only [apply_ite (State.onWires · w a k), raise_onWires]
  rfl

theorem takeReply_onWires (b : Byte) : takeReply b (s.onWires w a k) = (takeReply b s).onWires w a k := by
  unfold takeReply
  simp only [apply_ite (State.onWires · w a k), ← packetSent_onWires, ← raise_onWires, ← violate_onWires]
  rfl

theorem takeByte_onWires (b : Byte) : takeByte b (s.onWires w a k) = (takeByte b s).onWires w a k := by
  unfold takeByte
  rw [onWires_phase]
  cases s.phase
  case rxHeader => exact takeHeader_onWires s w a k b
  case txReply => exact takeReply_onWires s w a k b
  case rxSeq | rxCmp => exact expectByte_onWires s w a k _ b _ (s.goto _) (s.goto _)
  case rxEot2 | txEot1 =>
    dsimp only
    rw [← expectByte_onWires, ← violate_onWires]
    rfl
  case txHandshake =>
    dsimp only
    rw [← expectByte_onWires, ← violate_onWires, ← afterHandshake_onWires]
    rfl
  case txEot2 =>
    dsimp only
    rw [← expectByte_onWires, ← violate_onWires, ← transferEnded_onWires]
    rfl
  all_goals rfl

theorem readFailed_onWires (e : IoKind) : readFailed e (s.onWires w a k) = (readFailed e s).onWires w a k := by
  unfold readFailed
  rw [onWires_phase]
  cases s.phase
  case rxData => rfl
  case idle | terminated => rfl
  all_goals exact raise_onWires s w a k _

theorem byteWritten_onWires : byteWritten (s.onWires w a k) = (byteWritten s).onWires w a k := by
  unfold byteWritten
  rw [onWires_phase]
  cases s.phase
  case rxSeqCan | rxCmpCan | rxEot2Can | txHandshakeCan | txEot1Can | txEot2Can | txReplyCan => exact raise_onWires s w a k _
  case rxAck => exact packetReceived_onWires { s with packetNumber := nextPacket s.packetNumber } w a k
  case rxEotAck => exact transferEnded_onWires s w a k
  case txData =>
    dsimp only
    rw [apply_ite (State.onWires · w a k)]
    rfl
  all_goals rfl

theorem chunkLoaded_onWires : chunkLoaded (s.onWires w a k) = (chunkLoaded s).onWires w a k := by
  unfold chunkLoaded
  rw [apply_ite (State.onWires · w a k), ← startTx_onWires, ← startTx_onWires]
  rfl

theorem takeSourceByte_onWires (b : Byte) : takeSourceByte b (s.onWires w a k) = (takeSourceByte b s).onWires w a k := by
  unfold takeSourceByte
  dsimp only
  rw [apply_ite (State.onWires · w a k), ← chunkLoaded_onWires]
  rfl

theorem sinkWritten_onWires : sinkWritten (s.onWires w a k) = (sinkWritten s).onWires w a k :=
  startRx_onWires { s with sink := s.sink ++ s.x.toList, total := s.total + dataLen, len := dataLen } w a k

end OnWires

/-! ### A run on the clean channel -/

/-- The engine as it takes a step on the clean channel: what it has written is gone, and its next writes are accepted (R62). -/
def State.clean (s : State) : State := s.onWires [] [.accepted] [.accepted]

/-- Nothing from outside disturbs the engine: no reset, no host, and no answer to a write but those that are listed. -/
structure Undisturbed (s : State) : Prop where
  resetPin : s.resetPin = false
  host : s.host = []
  writesEnd : s.again.chanWrAns = []
  sinksEnd : s.again.sinkAns = []

theorem Undisturbed.of_eq {s t : State} (h : Undisturbed s) (hr : t.resetPin = s.resetPin) (hh : t.host = s.host)
    (hag : t.again = s.again) : Undisturbed t :=
  ⟨hr.trans h.resetPin, hh.trans h.host, hag ▸ h.writesEnd, hag ▸ h.sinksEnd⟩

/-- And those that are listed accept the write. -/
structure AllAccepted (s : State) : Prop extends Undisturbed s where
  writes : ∀ a ∈ s.chanWrAns, a = .accepted
  sinks : ∀ a ∈ s.sinkAns, a = .accepted

namespace AllAccepted

variable {s t : State} (h : AllAccepted s)
include h

theorem of_sameStreams (hs : SameStreams s t) : AllAccepted t := by
  obtain ⟨-, -, hw, -, -, hk, -, hag, hh, hr⟩ := hs
  exact ⟨h.of_eq hr hh hag, hw ▸ h.writes, hk ▸ h.sinks⟩

theorem chanWrAns_of_writeAnswers {a : WriteAnswer} {rest : List WriteAnswer} (ha : s.writeAnswers = a :: rest) :
    s.chanWrAns = a :: rest := by
  rw [State.writeAnswers, h.writesEnd] at ha
  cases hw : s.chanWrAns <;> simp_all

theorem sinkAns_of_sinkAnswers {a : SinkAnswer} {rest : List SinkAnswer} (ha : s.sinkAnswers = a :: rest) :
    s.sinkAns = a :: rest := by
  rw [State.sinkAnswers, h.sinksEnd] at ha
  cases hk : s.sinkAns <;> simp_all

/-- On the clean channel the engine takes the step it takes alone. -/
theorem step_clean (hstep : step s = .next t) :
    AllAccepted t ∧ ∃ bs a k, t.chanWr = s.chanWr ++ bs ∧ step s.clean = .next (t.onWires bs a k) := by
  have hr : s.clean.resetPin = false := h.resetPin
  have quiet {u : State} (hu : AllAccepted u) (hs : SameStreams u t) (hw : u.chanWr = s.chanWr)
      (he : step s.clean = .next t.clean) :
      AllAccepted t ∧ ∃ bs a k, t.chanWr = s.chanWr ++ bs ∧ step s.clean = .next (t.onWires bs a k) :=
    ⟨hu.of_sameStreams hs, [], _, _, by rw [List.append_nil, hs.chanWr_eq, hw], he⟩
  rcases step_cases hstep with ⟨hr', -⟩ | ⟨-, -, i, v, rest, hh, -⟩ | ⟨-, -, op, arg, rest, i, hh, -⟩ | ⟨-, hp, b, rest, ha, rfl⟩ |
    ⟨-, hp, e, rest, ha, rfl⟩ | ⟨-, hp, rest, ha, rfl⟩ | ⟨-, hp, e, wentOut, rest, ha, -⟩ | ⟨-, hp, ha, rfl⟩ |
    ⟨-, hp, b, rest, ha, rfl⟩ | ⟨-, hp, e, rest, ha, rfl⟩ | ⟨-, hp, rest, ha, rfl⟩ | ⟨-, hp, e, rest, ha, -⟩
  case inl => simp [h.resetPin] at hr'
  · simp [h.host] at hh
  · simp [h.host] at hh
  · refine quiet (u := { s with chanRd := rest }) ⟨h.of_eq rfl rfl rfl, h.writes, h.sinks⟩ (takeByte_sameStreams b _) rfl ?_
    rw [step_reads_byte hr hp ha]
    exact congrArg _ (takeByte_onWires { s with chanRd := rest } ..)
  · refine quiet (u := { s with chanRd := rest }) ⟨h.of_eq rfl rfl rfl, h.writes, h.sinks⟩ (readFailed_sameStreams e _) rfl ?_
    have ha' : s.clean.readAnswers = .fail e :: rest := ha
    rw [step_at_read hr hp]
    simp only [readStep, ha']
    exact congrArg _ (readFailed_onWires { s with chanRd := rest } ..)
  · obtain ⟨-, hw⟩ := List.forall_mem_cons.mp (h.chanWrAns_of_writeAnswers ha ▸ h.writes)
    have hu : AllAccepted { s with chanWrAns := rest, chanWr := s.chanWr ++ s.offeredByte.toList } :=
      ⟨h.of_eq rfl rfl rfl, hw, h.sinks⟩
    have hs := byteWritten_sameStreams { s with chanWrAns := rest, chanWr := s.chanWr ++ s.offeredByte.toList }
    refine ⟨hu.of_sameStreams hs, s.offeredByte.toList, [], [.accepted], hs.chanWr_eq, ?_⟩
    rw [step_writes_byte (rest := []) hr hp rfl]
    exact congrArg _ (byteWritten_onWires { s with chanWrAns := rest, chanWr := s.chanWr ++ s.offeredByte.toList } ..)
  · exact absurd (h.writes (.fail e wentOut) (h.chanWrAns_of_writeAnswers ha ▸ List.mem_cons_self)) nofun
  · refine quiet h (chunkLoaded_sameStreams s) rfl ?_
    have ha' : s.clean.sourceAnswers = [] := ha
    rw [step_at_source hr hp, sourceStep, ha']
    exact congrArg _ (chunkLoaded_onWires s ..)
  · refine quiet (u := { s with src := rest }) ⟨h.of_eq rfl rfl rfl, h.writes, h.sinks⟩ (takeSourceByte_sameStreams b _) rfl ?_
    have ha' : s.clean.sourceAnswers = .byte b :: rest := ha
    rw [step_at_source hr hp, sourceStep, ha']
    exact congrArg _ (takeSourceByte_onWires { s with src := rest } ..)
  · refine quiet (u := { s with src := rest }) ⟨h.of_eq rfl rfl rfl, h.writes, h.sinks⟩ (raise_sameStreams _ _) rfl ?_
    have ha' : s.clean.sourceAnswers = .fail e :: rest := ha
    rw [step_at_source hr hp, sourceStep, ha']
    exact congrArg _ (raise_onWires { s with src := rest } ..)
  · obtain ⟨-, hk⟩ := List.forall_mem_cons.mp (h.sinkAns_of_sinkAnswers ha ▸ h.sinks)
    have hu : AllAccepted { s with sinkAns := rest, sink := s.sink ++ s.x.toList, total := s.total + dataLen, len := dataLen } :=
      ⟨h.of_eq rfl rfl rfl, h.writes, hk⟩
    have hs := startRx_sameStreams
      { s with sinkAns := rest, sink := s.sink ++ s.x.toList, total := s.total + dataLen, len := dataLen }
    refine ⟨hu.of_sameStreams hs, [], [.accepted], [],
      hs.chanWr_eq.trans (List.append_nil _).symm, ?_⟩
    have ha' : s.clean.sinkAnswers = [.accepted] := rfl
    rw [step_at_sink hr hp, sinkStep, ha']
    exact congrArg _ (sinkWritten_onWires { s with sinkAns := rest } ..)
  · exact absurd (h.sinks (.fail e) (h.sinkAns_of_sinkAnswers ha ▸ List.mem_cons_self)) nofun

end AllAccepted

end Sys2Proof.Machine
end

section
/-! SUPPORT. TRANSMIT and RECEIVE joined by the clean channel (R62, R206, R248): each engine in turn runs as it does alone, and what it
writes stands in the other's queue. -/

namespace Sys2Proof.Machine

/-! ### The pair, an engine at a time -/

/-- The other role. -/
def Role.other : Role → Role
  | .sender => .receiver
  | .receiver => .sender

/-- The engine of a role. -/
def Pair.engine (p : Pair) : Role → State
  | .sender => p.sender
  | .receiver => p.receiver

/-- As far as the clean channel can tell, the engine of the role `who` is `s` and its peer is `r`, and nothing disturbs them. -/
structure Pair.Joins (p : Pair) (who : Role) (s r : State) : Prop where
  engine : acceptWrites (p.engine who) = s.clean
  peer : acceptWrites (p.engine who.other) = r.clean
  undisturbed : Undisturbed s
  peerUndisturbed : Undisturbed r

/-- A schedule leads the pair to these two states. -/
def Pair.Comes (p : Pair) (who : Role) (s r : State) : Prop := ∃ schedule, (p.run schedule).Joins who s r

/-- The engine with its next writes accepted, `m` on the channel and `j` on the sink. -/
def State.answered (s : State) (m j : Nat) : State := s.onWires s.chanWr (accepts m) (List.replicate j .accepted)

theorem Pair.run_append (first rest : List Role) (p : Pair) : p.run (first ++ rest) = (p.run first).run rest := by
  induction first generalizing p with
  | nil => rfl
  | cons who first ih => exact ih (p.next who)

/-- Nobody has the other's role. -/
theorem Role.other_other (who : Role) : who.other.other = who := by cases who <;> rfl

theorem Pair.Comes.swap {p : Pair} {who : Role} {s r : State} (h : p.Comes who s r) : p.Comes who.other r s := by
  obtain ⟨schedule, h⟩ := h
  exact ⟨schedule, h.peer, who.other_other.symm ▸ h.engine, h.peerUndisturbed, h.undisturbed⟩

/-- A step the engine takes on the clean channel: what it writes goes to its peer (R62). -/
theorem Pair.Joins.next {p : Pair} {who : Role} {s r : State} (h : p.Joins who s r) {t : State} {bs : List Byte}
    {a : List WriteAnswer} {k : List SinkAnswer} (hstep : step s.clean = .next (t.onWires bs a k)) (ht : Undisturbed t) :
    (p.next who).Joins who t (r.withChanRd (r.chanRd ++ bs.map .byte)) := by
  obtain ⟨hs, hr, -, hu⟩ := h
  have hpeer : acceptWrites (arrived (t.onWires bs a k) (p.engine who.other)) = (r.withChanRd (r.chanRd ++ bs.map .byte)).clean :=
    (congrArg (arrived (t.onWires bs a k)) hr :)
  cases who <;> simp only [Pair.engine] at hs
  all_goals
    refine ⟨?_, ?_, ht, hu.of_eq rfl rfl rfl⟩
    · simp only [Pair.next, hs, hstep]
      rfl
    · simp only [Pair.next, hs, hstep]
      exact hpeer

/-- A run the engine makes alone, all its writes accepted, it makes on the clean channel, and its peer finds what it wrote. -/
theorem Pair.Comes.of_runSteps {p : Pair} {who : Role} (k : Nat) {s r t : State} (h : p.Comes who s r) (ha : AllAccepted s)
    (hrun : runSteps k s = .next t) :
    ∃ bs, t.chanWr = s.chanWr ++ bs ∧ p.Comes who t (r.withChanRd (r.chanRd ++ bs.map .byte)) := by
  induction k generalizing s r with
  | zero =>
    cases hrun
    refine ⟨[], (List.append_nil _).symm, ?_⟩
    rwa [List.map_nil, List.append_nil]
  | succ k ih =>
    rw [runSteps_succ] at hrun
    cases hstep : step s with
    | fault | refused => simp [hstep] at hrun
    | next u =>
      simp only [hstep] at hrun
      obtain ⟨hu, bs, a, l, hbs, hclean⟩ := ha.step_clean hstep
      obtain ⟨schedule, hjoins⟩ := h
      have hnext : p.Comes who u (r.withChanRd (r.chanRd ++ bs.map .byte)) :=
        ⟨schedule ++ [who], by rw [Pair.run_append]; exact hjoins.next hclean hu.toUndisturbed⟩
      obtain ⟨cs, hcs, hcomes⟩ := ih hnext hu hrun
      refine ⟨bs ++ cs, by rw [hcs, hbs, List.append_assoc], ?_⟩
      rw [List.map_append, ← List.append_assoc]
      exact hcomes

/-- The same for an engine that is given the answers its run takes. -/
theorem Pair.Comes.reaches {p : Pair} {who : Role} {s r t : State} (h : p.Comes who s r) (m j : Nat)
    (hrun : Reaches (s.answered m j) t) {bs : List Byte} (hbs : t.chanWr = s.chanWr ++ bs) :
    p.Comes who t (r.withChanRd (r.chanRd ++ bs.map .byte)) := by
  obtain ⟨k, hrun⟩ := hrun
  obtain ⟨schedule, hs, hr, hu, hur⟩ := h
  have ha : AllAccepted (s.answered m j) :=
    ⟨hu.of_eq rfl rfl rfl, fun _ => List.eq_of_mem_replicate, fun _ => List.eq_of_mem_replicate⟩
  obtain ⟨cs, hcs, hcomes⟩ := Pair.Comes.of_runSteps (s := s.answered m j) k ⟨schedule, hs, hr, ha.toUndisturbed, hur⟩ ha hrun
  obtain rfl : cs = bs := List.append_cancel_left (hcs.symm.trans hbs)
  exact hcomes

/-! ### The sender's half of the EOT exchange, in the order of its answers -/

section SenderEot

variable {s : State} (hr : s.resetPin = false) (rd : List ReadAnswer) (wr : List WriteAnswer)
include hr

/-- The first EOT (R163). -/
theorem step_writes_firstEot (hp : s.phase = .txEot1Send) (hw : s.chanWrAns = .accepted :: wr) :
    step s = .next (s.wrote [0x04] wr .txEot1) := by
  have hstep := step_wrote hr [] wr (p := .txEot1Send) rfl rfl
  rwa [wrote_nil hp hw] at hstep

/-- The NAK to the first EOT, and the second EOT (R163). -/
theorem runSteps_secondEotWritten :
    runSteps 2 ((s.withChanRd (.byte 0x15 :: rd)).wrote [0x04] (.accepted :: wr) .txEot1) =
      .next ((s.withChanRd rd).wrote [0x04, 0x04] wr .txEot2) := by
  have hnak : takeByte 0x15 ((s.withChanRd rd).wrote [0x04] (.accepted :: wr) .txEot1) =
      (s.withChanRd rd).wrote [0x04] (.accepted :: wr) .txEot2Send :=
    (takeByte_txEot1 _ rfl).trans (expectByte_same ..)
  have hread := step_reads_after_wrote hr [0x04] (.accepted :: wr) (q := .txEot1) rfl 0x15 rd
  rw [hnak] at hread
  exact (runSteps_succ_of_next hread).trans (runSteps_succ_of_next (step_wrote (s := s.withChanRd rd) hr _ _ rfl rfl))

/-- The ACK to the second EOT ends TRANSMIT with its count (R164, R205). -/
theorem step_takes_lastAck (hcmd : s.cmd = .transmit) (bs : List Byte) :
    step ((s.withChanRd (.byte 0x06 :: rd)).wrote bs wr .txEot2) =
      .next (returned s.total .terminated ((s.withChanRd rd).wrote bs wr .txEot2)) := by
  rw [step_reads_after_wrote hr bs wr rfl, takeByte_txEot2 _ rfl]
  exact congrArg _ ((expectByte_same ..).trans (transferEnded_of_transmit hcmd))

end SenderEot

/-! ### One packet over the channel -/

/-- Between two packets: the sender is at its source with `D` left, the receiver at its header read, both at the same packet, and the
channel is empty but for the receiver's handshake NAK (R62, R206). -/
structure Synced (D : List Byte) (s r : State) : Prop where
  source : AtSource D s
  cmd : s.cmd = .transmit
  header : AtHeader r
  handshake : s.chanRd = List.replicate (if s.handshakeDone then 0 else 1) (.byte 0x15)
  empty : r.chanRd = []
  packetNumber : r.packetNumber = s.packetNumber
  config : r.config = s.config

section Synced

variable {p : Pair} {D : List Byte} {s r : State} (hp : p.Comes .sender s r) (h : Synced D s r)
include hp h

/-- A chunk is sent, delivered and acknowledged (R206). -/
theorem Synced.comes_next (hD : D ≠ []) :
    ∃ s' r', p.Comes .sender s' r' ∧ Synced (D.drop 128) s' r' ∧ s'.total = s.total + min 128 D.length ∧
      r'.total = r.total + 128 ∧ r'.sink = r.sink ++ padChunk (D.take 128) := by
  have hd : (padChunk (D.take 128)).length = 128 := length_padChunk (by simp)
  have hs : AtSource D (s.answered 132 0) := ⟨h.source.resetPin, h.source.phase, h.source.n, h.source.src, h.source.ends⟩
  have hsent := hp.reaches 132 0 (hs.reaches_sentChunk (rd := []) (by rw [List.append_nil]; exact h.handshake) hD
    (List.append_nil _).symm) rfl
  have hframe : r.chanRd ++ (frameOf s.config s.packetNumber (padChunk (D.take 128))).map .byte =
      (frameOf r.config r.packetNumber (padChunk (D.take 128))).map .byte ++ [] := by
    rw [h.empty, h.config, h.packetNumber, List.nil_append, List.append_nil]
  have hr : AtHeader ((r.withChanRd (r.chanRd ++ (frameOf s.config s.packetNumber (padChunk (D.take 128))).map .byte)).answered 1 1) :=
    ⟨h.header.resetPin, h.header.phase, h.header.cmd, h.header.handshakeDone⟩
  have hdelivered := hsent.swap.reaches 1 1 ⟨134, hr.runSteps_delivered hd hframe rfl rfl⟩ (bs := [0x06]) rfl
  have hacked := hdelivered.swap.reaches 0 0 (bs := [])
    (reaches_of_step (step_acksChunk (s := s.answered 132 0) h.source.resetPin h.cmd D [] [])) (List.append_nil _).symm
  exact ⟨_, _, hacked, {
    source := hs.ackedChunk [] []
    cmd := h.cmd
    header := hr.delivered hd [] [] []
    handshake := rfl
    empty := rfl
    packetNumber := congrArg nextPacket h.packetNumber
    config := h.config }, rfl, rfl, rfl⟩

end Synced

/-- With nothing left to send the two EOTs are exchanged, and both commands end with their counts (R136, R164, R206). -/
theorem Synced.comes_to_end {p : Pair} {s r : State} (hp : p.Comes .sender s r) (h : Synced [] s r) :
    ∃ s' r', p.Comes .sender s' r' ∧ s'.phase = .terminated ∧ r'.phase = .terminated ∧ s'.result = .ok s.total ∧
      r'.result = .ok r.total ∧ r'.sink = r.sink := by
  have hs : AtSource [] (s.answered 1 0) := ⟨h.source.resetPin, h.source.phase, h.source.n, h.source.src, h.source.ends⟩
  have hreset : ((s.answered 1 0).atFirstEot []).resetPin = false := h.source.resetPin
  have hfirst := hp.reaches 1 0 (bs := [0x04])
    ((hs.reaches_firstEot (rd := []) (by rw [List.append_nil]; exact h.handshake) rfl).trans
      (reaches_of_step (step_writes_firstEot hreset [] rfl rfl))) rfl
  rw [h.empty] at hfirst
  have hr : AtHeader ((r.withChanRd [.byte 0x04]).answered 1 0) :=
    ⟨h.header.resetPin, h.header.phase, h.header.cmd, h.header.handshakeDone⟩
  have hnak := hfirst.swap.reaches 1 0 ⟨2, hr.runSteps_firstEot rfl rfl⟩ (bs := [0x15]) rfl
  have hsecond := hnak.swap.reaches 1 0 ⟨2, runSteps_secondEotWritten hreset [] []⟩ (bs := [0x04])
    (List.append_cons ..)
  have hack := hsecond.swap.reaches 1 0 ⟨2, hr.runSteps_secondEot (rd := []) (wr := [])⟩ (bs := [0x06]) (List.append_cons ..)
  have hend := hack.swap.reaches 0 0 (reaches_of_step (step_takes_lastAck hreset [] [] h.cmd [0x04, 0x04])) (bs := [])
    (List.append_nil _).symm
  exact ⟨_, _, hend, rfl, rfl, rfl, rfl, rfl⟩

/-! ### The whole transfer -/

/-- Both commands end, the sender's count being that of its bytes, and the packets are in the sink (R206). -/
theorem Synced.completes (D : List Byte) {p : Pair} {s r : State} (hp : p.Comes .sender s r) (h : Synced D s r) :
    ∃ s' r', p.Comes .sender s' r' ∧ s'.phase = .terminated ∧ r'.phase = .terminated ∧ s'.result = .ok (s.total + D.length) ∧
      r'.result = .ok (r.total + 128 * (packetsOf D).length) ∧ r'.sink = r.sink ++ (packetsOf D).flatten := by
  induction D using chunk_induction generalizing s r with
  | nil =>
    rw [packetsOf_nil, List.flatten_nil, List.append_nil]
    exact h.comes_to_end hp
  | chunk D hD ih =>
    obtain ⟨s₁, r₁, hp₁, h₁, hcount, hcount', hsink⟩ := h.comes_next hp hD
    obtain ⟨s', r', hp', hphase, hphase', hresult, hresult', hsink'⟩ := ih hp₁ h₁
    refine ⟨s', r', hp', hphase, hphase', ?_, ?_, ?_⟩
    · rw [hresult, hcount, List.length_drop]
      exact congrArg CmdResult.ok (by omega)
    · rw [hresult', hcount', packetsOf_of_ne_nil hD, List.length_cons]
      exact congrArg CmdResult.ok (by omega)
    · rw [hsink', hsink, packetsOf_of_ne_nil hD, List.flatten_cons, List.append_assoc]

/-- How many packets a source makes (R201). -/
theorem length_packetsOf (D : List Byte) : (packetsOf D).length = (D.length + 127) / 128 := by
  induction D using chunk_induction with
  | nil => rfl
  | chunk D hD ih =>
    have hpos := List.length_pos_iff.mpr hD
    rw [packetsOf_of_ne_nil hD, List.length_cons, ih, List.length_drop]
    omega

/-- The packets of a source are its bytes, with zeros behind them up to a whole packet (R64, R201). -/
theorem flatten_packetsOf (D : List Byte) :
    (packetsOf D).flatten = D ++ List.replicate (128 * ((D.length + 127) / 128) - D.length) 0x00 := by
  induction D using chunk_induction with
  | nil => rfl
  | chunk D hD ih =>
    have hpos := List.length_pos_iff.mpr hD
    rw [packetsOf_of_ne_nil hD, List.flatten_cons, ih, padChunk, List.length_take, List.length_drop]
    by_cases hlast : D.length ≤ 128
    · have hzeros : 128 * ((D.length + 127) / 128) - D.length = 128 - min 128 D.length := by omega
      have hnone : 128 * ((D.length - 128 + 127) / 128) - (D.length - 128) = 0 := by omega
      rw [hzeros, hnone, List.take_of_length_le hlast, List.drop_eq_nil_of_le hlast]
      simp
    · have hzeros : 128 * ((D.length - 128 + 127) / 128) - (D.length - 128) = 128 * ((D.length + 127) / 128) - D.length := by omega
      have hnone : 128 - min 128 D.length = 0 := by omega
      rw [hzeros, hnone, List.replicate_zero, List.append_nil, ← List.append_assoc, List.take_append_drop]

/-- The sender's engine after it has accepted TRANSMIT (R200). -/
def senderOf (c : Config) (D : List Byte) : State :=
  { State.reset with config := c, src := D.map .byte, cmd := .transmit, role := some .sender, phase := .trSrc }

/-- The receiver's engine after it has accepted RECEIVE (R195). -/
def receiverOf (c : Config) : State :=
  { State.reset with config := c, cmd := .receive, role := some .receiver, len := 128, phase := .rxHsNak }

/-- Both commands are accepted, and the receiver's handshake NAK is on its way (R132, R195, R200). -/
theorem transferOf_comes_synced (c : Config) (D : List Byte) :
    ∃ s r, (transferOf c D).Comes .sender s r ∧ Synced D s r ∧ s.total = 0 ∧ r.total = 0 ∧ r.sink = [] := by
  have hstart : (transferOf c D).Comes .receiver (receiverOf c) (senderOf c D) :=
    ⟨[.sender, .receiver], rfl, rfl, ⟨rfl, rfl, rfl, rfl⟩, ⟨rfl, rfl, rfl, rfl⟩⟩
  have hnak := hstart.reaches 1 0 (reaches_of_step (step_receive_handshake (s := (receiverOf c).answered 1 0) rfl rfl (wr := []) rfl))
    (bs := [0x15]) rfl
  exact ⟨_, _, hnak.swap, ⟨⟨rfl, rfl, rfl, rfl, rfl⟩, rfl, ⟨rfl, rfl, rfl, rfl⟩, rfl, rfl, rfl, rfl⟩, rfl, rfl, rfl⟩

/-- Settles O45: from the first packet on `Synced.completes`, with the packets of `D` written out by `flatten_packetsOf`. -/
theorem roundTripOverTheCleanChannel : Obligations.RoundTripOverTheCleanChannel := by
  intro c D
  obtain ⟨s, r, hp, hsync, hs0, hr0, hsink0⟩ := transferOf_comes_synced c D
  obtain ⟨s', r', ⟨schedule, hjoins⟩, hphase, hphase', hresult, hresult', hsink⟩ := hsync.completes D hp
  rw [hs0, Nat.zero_add] at hresult
  rw [hr0, Nat.zero_add, length_packetsOf] at hresult'
  rw [hsink0, List.nil_append, flatten_packetsOf] at hsink
  have hengine {α : Type} (f : State → α) : f (acceptWrites ((transferOf c D).run schedule).sender) = f s'.clean :=
    congrArg f hjoins.engine
  have hpeer {α : Type} (f : State → α) : f (acceptWrites ((transferOf c D).run schedule).receiver) = f r'.clean :=
    congrArg f hjoins.peer
  exact ⟨schedule, (hengine State.phase).trans hphase, (hpeer State.phase).trans hphase', (hengine State.result).trans hresult,
    (hpeer State.result).trans hresult', (hpeer State.sink).trans hsink⟩

end Sys2Proof.Machine
end

section
/-! SUPPORT. Exceptions at the ports (R225, R227, R240, R243): what a failed transaction raises at its port, what the CAN write of a
violation ends with, and the one way into a CAN phase. -/

namespace Sys2Proof.Machine

/-! ### A failed transaction raises the `IoFailure` of its port and site -/

section Failed

variable {s : State} {site : Site} {k : IoKind} (hr : s.resetPin = false) (hsite : s.phase.site = some site)
include hr hsite

theorem step_read_failed_raises (hport : s.phase.port = some .chanRd) (hdata : site ≠ .rxData) {rest : List ReadAnswer}
    (ha : s.readAnswers = .fail k :: rest) : step s = .next (raise (.ioFailure .chanRd k site) { s with chanRd := rest }) := by
  rw [step_at_read hr hport]
  simp only [readStep, ha]
  rw [readFailed_of_site k (by exact hsite) hdata]

theorem step_write_failed_raises (hport : s.phase.port = some .chanWr) {wentOut : Bool} {rest : List WriteAnswer}
    (ha : s.writeAnswers = .fail k wentOut :: rest) :
    step s = .next (raise (.ioFailure .chanWr k site) { s with
      chanWrAns := rest, chanWr := if wentOut then s.chanWr ++ s.offeredByte.toList else s.chanWr }) := by
  rw [step_at_write hr hport]
  simp only [writeStep, ha]
  rw [writeFailed_of_site k (by exact hsite)]

theorem step_source_failed_raises (hport : s.phase.port = some .src) {rest : List SrcAnswer}
    (ha : s.sourceAnswers = .fail k :: rest) : step s = .next (raise (.ioFailure .src k site) { s with src := rest }) := by
  rw [phase_eq_trSrc hport] at hsite
  cases hsite
  rw [step_at_source hr hport]
  simp only [sourceStep, ha]

theorem step_sink_failed_raises (hport : s.phase.port = some .sink) {rest : List SinkAnswer}
    (ha : s.sinkAnswers = .fail k :: rest) : step s = .next (raise (.ioFailure .sink k site) { s with sinkAns := rest }) := by
  rw [phase_eq_rcSink hport] at hsite
  cases hsite
  rw [step_at_sink hr hport]
  simp only [sinkStep, ha]

end Failed

/-- Settles O26: each port raises its `IoFailure`, which ends the command where TRANSMIT does not re-issue its chunk. -/
theorem portFailureEndsTheCommand : Obligations.PortFailureEndsTheCommand := by
  intro s site k hr hsite
  refine ⟨fun rest hport hdata ha hn => ?_, fun wentOut rest hport ha hn => ?_, fun rest hport ha => ?_, fun rest hport ha => ?_⟩
  · rw [step_read_failed_raises hr hsite hport hdata ha, raise_ioFailure_of_no_retry (by exact hn)]
    rfl
  · rw [step_write_failed_raises hr hsite hport ha, raise_ioFailure_of_no_retry (by exact hn)]
    rfl
  · rw [step_source_failed_raises hr hsite hport ha, raise_ioFailure_src]
    rfl
  · rw [step_sink_failed_raises hr hsite hport ha, raise_ioFailure_sink]
    rfl

/-- Settles O24: the accepted CAN is `canThenViolation`, and the failed one raises the `IoFailure` of its own site. -/
theorem canWriteThenProtocolViolation : Obligations.CanWriteThenProtocolViolation := by
  intro s site canSite hr hc hsite
  obtain ⟨hport, hbyte⟩ := offers_can_of_canOf rfl hc
  refine ⟨fun rest ha => canThenViolation hc s rest hr rfl ha, fun k wentOut rest ha hn => ?_⟩
  rw [step_write_failed_raises hr hsite hport ha, raise_ioFailure_of_no_retry (by exact hn), hbyte]
  rfl

/-! ### No operation but a read byte's leads to a CAN phase -/

theorem canOf_of_port {s : State} (h : s.phase.port ≠ some .chanWr) : s.phase.canOf = none := by
  rw [Option.eq_none_iff_forall_ne_some]
  intro site hc
  obtain ⟨hport, -⟩ := offers_can_of_canOf rfl hc
  exact h hport

theorem startRx_canOf (s : State) : (startRx s).phase.canOf = none := by
  rcases startRx_cases s with ⟨-, h⟩ | ⟨-, h⟩ <;> rw [h] <;> rfl

theorem startTx_canOf (s : State) : (startTx s).phase.canOf = none := by
  rcases startTx_cases s with ⟨-, h⟩ | ⟨-, -, h⟩ | ⟨-, -, h⟩ <;> rw [h] <;> rfl

theorem raise_canOf (e : CmdError) (s : State) : (raise e s).phase.canOf = none := by
  rcases raise_cases e s with ⟨-, h⟩ | ⟨-, -, h⟩ | ⟨-, -, h⟩ <;> rw [h]
  · rfl
  · rfl
  · exact startTx_canOf _

theorem packetReceived_canOf (s : State) : (packetReceived s).phase.canOf = none := by
  unfold packetReceived
  split <;> rfl

theorem packetSent_canOf (s : State) : (packetSent s).phase.canOf = none := by
  unfold packetSent
  split <;> rfl

theorem transferEnded_canOf (s : State) : (transferEnded s).phase.canOf = none := by
  unfold transferEnded
  split <;> rfl

theorem takeHeader_canOf (b : Byte) (s : State) : (takeHeader b s).phase.canOf = none := by
  rw [takeHeader_eq]
  split
  · rfl
  split
  · rfl
  split <;> rfl

theorem takeData_canOf (i : Fin dataLen) (b : Byte) (s : State) : (takeData i b s).phase.canOf = none := by
  rw [takeData, goto_phase, nextRxData]
  split <;> rfl

theorem takeChecksum_canOf (b : Byte) (s : State) : (takeChecksum b s).phase.canOf = none := by
  unfold takeChecksum
  dsimp only
  split <;> rfl

theorem readFailed_canOf {s : State} (hport : s.phase.port = some .chanRd) (k : IoKind) :
    (readFailed k s).phase.canOf = none := by
  unfold readFailed
  split
  · exact takeData_canOf _ canByte s
  · split
    · exact raise_canOf _ s
    · exact canOf_of_port (by simp [hport])

theorem byteWritten_canOf (s : State) : (byteWritten s).phase.canOf = none := by
  cases hc : s.phase.canOf with
  | some site =>
    rw [byteWritten_of_canOf rfl hc]
    rfl
  | none =>
    unfold byteWritten
    split
    case h_2 | h_3 | h_7 | h_9 | h_11 | h_13 | h_19 => exact raise_canOf _ s
    case h_4 => exact packetReceived_canOf _
    case h_8 => exact transferEnded_canOf s
    case h_17 i _ =>
      split
      · next hi =>
        rw [nextTxData, dif_pos hi]
        rfl
      · rfl
    case h_20 => exact hc
    all_goals rfl

theorem writeFailed_canOf {s : State} (hport : s.phase.port = some .chanWr) (k : IoKind) :
    (writeFailed k s).phase.canOf = none := by
  have hsite := busy_of_port hport
  rw [busy_eq_site_isSome, Option.isSome_iff_exists] at hsite
  obtain ⟨site, hsite⟩ := hsite
  rw [writeFailed_of_site k hsite]
  exact raise_canOf _ s

theorem chunkLoaded_canOf (s : State) : (chunkLoaded s).phase.canOf = none := by
  unfold chunkLoaded
  split <;> exact startTx_canOf _

theorem takeSourceByte_canOf {s : State} (hport : s.phase.port = some .src) (b : Byte) :
    (takeSourceByte b s).phase.canOf = none := by
  unfold takeSourceByte
  dsimp only
  split
  · exact canOf_of_port (by simp [hport])
  · exact chunkLoaded_canOf _

theorem exec_command_canOf {op : BitVec 3} {arg : Nat} {i : Instr} {s t : State} (hd : decode (.cmd op arg) = .ok i)
    (h : exec i s = .next t) : t.phase.canOf = none := by
  rcases exec_command_cases hd h with ⟨-, -, rfl⟩ | ⟨-, -, -, rfl⟩ | ⟨-, -, -, rfl⟩ | ⟨-, -, rfl⟩ | ⟨-, -, rfl⟩
  · rfl
  · split
    · rfl
    · exact startRx_canOf _
  · split
    · rfl
    · exact startTx_canOf _
  · exact startRx_canOf _
  · rfl

/-- A step into a CAN phase takes a byte at a read site. -/
theorem step_canOf_eq_none_or_takes_byte {s t : State} (hstep : step s = .next t) :
    t.phase.canOf = none ∨
    (s.phase.port = some .chanRd ∧ ∃ b rest, s.readAnswers = .byte b :: rest ∧ t = takeByte b (s.withChanRd rest)) := by
  rcases step_cases hstep with ⟨-, rfl⟩ | ⟨-, hp, i, v, rest, -, rfl⟩ | ⟨-, hp, op, arg, rest, i, -, hd, he⟩ |
    ⟨-, hp, b, rest, ha, rfl⟩ | ⟨-, hp, k, rest, -, rfl⟩ | ⟨-, hp, rest, -, rfl⟩ | ⟨-, hp, k, wentOut, rest, -, rfl⟩ |
    ⟨-, -, -, rfl⟩ | ⟨-, hp, b, rest, -, rfl⟩ | ⟨-, -, k, rest, -, rfl⟩ | ⟨-, -, rest, -, rfl⟩ | ⟨-, -, k, rest, -, rfl⟩
  · exact .inl rfl
  · exact .inl (canOf_of_port (by simp [hp]))
  · exact .inl (exec_command_canOf hd he)
  · exact .inr ⟨hp, b, rest, ha, rfl⟩
  all_goals left
  · exact readFailed_canOf (s := { s with chanRd := rest }) hp k
  · exact byteWritten_canOf _
  · exact writeFailed_canOf (s := { s with chanWrAns := rest, chanWr := _ }) hp k
  · exact chunkLoaded_canOf s
  · exact takeSourceByte_canOf (s := { s with src := rest }) hp b
  · exact raise_canOf _ _
  · exact startRx_canOf _
  · exact raise_canOf _ _

/-! ### A byte that leads to a CAN phase -/

section IntoCan

variable {s m v : State} {e b : Byte} {site here : Site} {p : Phase} {emit : Bool}

/-- At an expected-byte site it is neither the expected one nor CAN (R86, R88, R222). -/
theorem mismatch_of_expectByte (hm : m.phase.canOf = none) (h : (expectByte e b here m v s).phase.canOf = some site) :
    b ≠ e ∧ b ≠ 0x18 ∧ v.phase.canOf = some site := by
  rcases expectByte_cases e b here m v s with ⟨-, hx⟩ | ⟨-, -, hx⟩ | ⟨he, hcan, hx⟩ <;> rw [hx] at h
  · simp [hm] at h
  · cases h
  · exact ⟨he, hcan, h⟩

/-- At an open site the parameter is set (R227). -/
theorem emit_of_violate (h : (violate emit p here s).phase.canOf = some site) : emit = true ∧ p.canOf = some site := by
  cases emit with
  | false =>
    rw [violate, if_neg Bool.false_ne_true, raise_canOf] at h
    cases h
  | true => exact ⟨rfl, h⟩

/-- At an open site the byte is a mismatch and the parameter is set (R88, R227). -/
theorem mismatch_of_open_site (hm : m.phase.canOf = none)
    (h : (expectByte e b here m (violate emit p here s) s).phase.canOf = some site) :
    b ≠ e ∧ b ≠ 0x18 ∧ emit = true ∧ p.canOf = some site := by
  obtain ⟨hne, hcan, hv⟩ := mismatch_of_expectByte hm h
  exact ⟨hne, hcan, emit_of_violate hv⟩

theorem mismatch_of_takeReply (h : (takeReply b s).phase.canOf = some site) :
    b ≠ 0x06 ∧ b ≠ 0x15 ∧ b ≠ 0x18 ∧ s.config.emitCanTxReply = true ∧ site = .txReply := by
  unfold takeReply at h
  split at h
  · simp [packetSent_canOf] at h
  split at h
  · split at h
    · rw [raise_canOf] at h
      cases h
    · cases h
  split at h
  · rw [raise_canOf] at h
    cases h
  · next hack hnak hcan =>
    obtain ⟨hemit, hv⟩ := emit_of_violate h
    cases hv
    exact ⟨hack, hnak, hcan, hemit, rfl⟩

end IntoCan

/-- The byte `b` violates the read site `site` of `s`, is not CAN itself, and the violation is one that CAN is written for (R227). -/
structure CanMismatch (s : State) (b : Byte) (site : Site) : Prop where
  atSite : s.phase.site = some site
  notCan : b ≠ 0x18
  rxSeq : site = .rxSeq → b ≠ s.packetNumber
  rxCmp : site = .rxCmp → b.toNat ≠ 255 - s.packetNumber.toNat
  rxEot2 : site = .rxEot2 → b ≠ 0x04 ∧ s.config.emitCanRxEot2 = true
  txHandshake : site = .txHandshake → b ≠ 0x15 ∧ s.config.emitCanTxHandshake = true
  txEot1 : site = .txEot1 → b ≠ 0x15 ∧ s.config.emitCanTxEot1 = true
  txEot2 : site = .txEot2 → b ≠ 0x06 ∧ s.config.emitCanTxEot2 = true
  txReply : site = .txReply → b ≠ 0x06 ∧ b ≠ 0x15 ∧ s.config.emitCanTxReply = true

/-- Which byte leads to a CAN phase, site by site. -/
theorem canMismatch_of_takeByte {s : State} {b : Byte} {site : Site} (hport : s.phase.port = some .chanRd)
    (h : (takeByte b s).phase.canOf = some site) : CanMismatch s b site := by
  unfold takeByte at h
  split at h
  case h_1 => simp [takeHeader_canOf] at h
  case h_2 hp =>
    obtain ⟨hne, hcan, hv⟩ := mismatch_of_expectByte rfl h
    cases hv
    exact ⟨by rw [hp]; rfl, hcan, fun _ => hne, nofun, nofun, nofun, nofun, nofun, nofun⟩
  case h_3 hp =>
    obtain ⟨hne, hcan, hv⟩ := mismatch_of_expectByte rfl h
    cases hv
    exact ⟨by rw [hp]; rfl, hcan, nofun, fun _ => mt eq_complementOf_iff.mpr hne, nofun, nofun, nofun, nofun, nofun⟩
  case h_4 i _ => simp [takeData_canOf] at h
  case h_5 => simp [takeChecksum_canOf] at h
  case h_6 hp =>
    obtain ⟨hne, hcan, hemit, hv⟩ := mismatch_of_open_site rfl h
    cases hv
    exact ⟨by rw [hp]; rfl, hcan, nofun, nofun, fun _ => ⟨hne, hemit⟩, nofun, nofun, nofun, nofun⟩
  case h_7 hp =>
    have hmatch : (afterHandshake { s with handshakeDone := true }).phase.canOf = none := by
      rw [afterHandshake_eq_startTx rfl]
      exact startTx_canOf _
    obtain ⟨hne, hcan, hemit, hv⟩ := mismatch_of_open_site hmatch h
    cases hv
    exact ⟨by rw [hp]; rfl, hcan, nofun, nofun, nofun, fun _ => ⟨hne, hemit⟩, nofun, nofun, nofun⟩
  case h_8 hp =>
    obtain ⟨hne, hcan, hemit, hv⟩ := mismatch_of_open_site rfl h
    cases hv
    exact ⟨by rw [hp]; rfl, hcan, nofun, nofun, nofun, nofun, fun _ => ⟨hne, hemit⟩, nofun, nofun⟩
  case h_9 hp =>
    obtain ⟨hne, hcan, hemit, hv⟩ := mismatch_of_open_site (transferEnded_canOf s) h
    cases hv
    exact ⟨by rw [hp]; rfl, hcan, nofun, nofun, nofun, nofun, nofun, fun _ => ⟨hne, hemit⟩, nofun⟩
  case h_10 hp =>
    obtain ⟨hack, hnak, hcan, hemit, rfl⟩ := mismatch_of_takeReply h
    exact ⟨by rw [hp]; rfl, hcan, nofun, nofun, nofun, nofun, nofun, nofun, fun _ => ⟨hack, hnak, hemit⟩⟩
  case h_11 => simp [canOf_of_port (s := s) (by simp [hport])] at h

/-- Settles O25: only a byte read leads to a CAN phase, and `canMismatch_of_takeByte` says which byte at which site. -/
theorem canOnlyAfterAMismatch : Obligations.CanOnlyAfterAMismatch := by
  intro s t hstep site hc
  rcases step_canOf_eq_none_or_takes_byte hstep with hnone | ⟨hport, b, rest, ha, rfl⟩
  · simp [hnone] at hc
  · have hx := canMismatch_of_takeByte (s := s.withChanRd rest) hport hc
    exact ⟨hx.atSite, b, rest, ha, hx.notCan, hx.rxSeq, hx.rxCmp, hx.rxEot2, hx.txHandshake, hx.txEot1, hx.txEot2, hx.txReply⟩

end Sys2Proof.Machine
end

section
/-! SUPPORT. The reset input (R260 to R262): the step takes it before it looks at the phase. -/

namespace Sys2Proof.Machine

/-- Settles O46: with the pin asserted every step is `takeReset` (`step_of_reset`), which is the reset state, whose own pin is released,
with the streams and parameters kept. -/
theorem resetStopsAnyCommand : Obligations.ResetStopsAnyCommand := by
  intro s hpin
  calc step s
    _ = .next (takeReset s) := step_of_reset hpin
    _ = _ := rfl

end Sys2Proof.Machine
end
